-- ==== Sys2Proof/Word.lean ====
section
/-! DEFINITION. The one word type of the block: the byte of the control link and of the hinge sense line.
Every figure of the spec (power, voltage, current, time, charge) is an integer whose formulas are exact
("Products and sums inside a formula are exact and do not overflow", 00_scope, Arithmetic), so figures are
`Nat` and `Int`, and only bytes and flag fields are bit vectors. -/

namespace Sys2Proof

/-- One byte of a frame, of an answer or of a SAMPLE (R170). -/
abbrev Byte := BitVec 8

end Sys2Proof
end

