-- ==== Sys2Proof/Syntax.lean ====
section
/-! DEFINITION. The commands and events of the J262: one constructor of `Instr` for each row of
spec/opcode_table.json. A host command (NOP .. READ_COUNTERS) carries the argument bytes of its frame
(R172); a sample carries the readings of its senses; a timer or run event names the timer or run. -/

namespace Sys2Proof

/-- The two cells (00_scope, Terms). -/
inductive Cell where
  | A | B
  deriving DecidableEq, Repr, Inhabited

/-- The two input ports (8). -/
inductive PortId where
  | cable | coil
  deriving DecidableEq, Repr, Inhabited

/-- Which of the two downstream blocks takes a cell's accepted sample slot first. R90 leaves the order
open ("If a branch trip of that slot is taken first ... If it is taken after"), so the event carries it (DESIGN CHOICE, log 14). -/
inductive SlotOrder where
  /-- charge control evaluates the slot, then branch protection tests it -/
  | chargeFirst
  /-- branch protection tests the slot, then charge control evaluates it -/
  | branchFirst
  deriving DecidableEq, Repr, Inhabited

/-- What a rise of HSL during the reply ended (R119, points 2 and 3). -/
inductive FramingCause where
  /-- the rise that ends the nine-bit measure of the timing byte, which lasted `nineBitNs` nanoseconds -/
  | rate (nineBitNs : Nat)
  /-- the rise that ends a low stop bit, the line having been low for `lowNs` nanoseconds -/
  | lowStop (lowNs : Nat)
  deriving DecidableEq, Repr, Inhabited

/-- The commands and events of spec/opcode_table.json, one constructor a row. -/
inductive Instr where
  /-- POWER_ON_RESET (R31) -/
  | powerOnReset
  /-- RSTN_LOW (R154): RSTN has been held low for 10 µs -/
  | rstnLow
  /-- LSEL_FALL (R155) -/
  | lselFall
  /-- LSEL_RISE (R155): LSEL rises; `bits` are the bits of LDI taken at the rising edges of LCLK in this frame -/
  | lselRise (bits : List Bool)
  /-- FRAME_TIMER_EXPIRY (R155) -/
  | frameTimerExpiry
  /-- NOP (R157) -/
  | nop (args : List Byte)
  /-- RESET (R157) -/
  | reset (args : List Byte)
  /-- RESERVE (R7) -/
  | reserve (args : List Byte)
  /-- ADJUST (R9) -/
  | adjust (args : List Byte)
  /-- RENEW (R10) -/
  | renew (args : List Byte)
  /-- RELEASE (R11) -/
  | release (args : List Byte)
  /-- QUERY (R12) -/
  | query (args : List Byte)
  /-- COLLECT (R13) -/
  | collect (args : List Byte)
  /-- READ_BUDGET (R50) -/
  | readBudget (args : List Byte)
  /-- READ_CELL (R87) -/
  | readCell (args : List Byte)
  /-- READ_INPUT (R144) -/
  | readInput (args : List Byte)
  /-- OFFERS (R137) -/
  | offers (args : List Byte)
  /-- APPLIED (R138) -/
  | applied (args : List Byte)
  /-- ISOLATE (R143) -/
  | isolate (args : List Byte)
  /-- ISOLATE_CELL (R112) -/
  | isolateCell (args : List Byte)
  /-- CLEAR_FAULT (R113) -/
  | clearFault (args : List Byte)
  /-- SET_LIMIT (R160) -/
  | setLimit (args : List Byte)
  /-- GET_LIMIT (R163) -/
  | getLimit (args : List Byte)
  /-- LOCK_LIMITS (R161) -/
  | lockLimits (args : List Byte)
  /-- READ_CONDITIONS (R166) -/
  | readConditions (args : List Byte)
  /-- SET_MASKS (R167) -/
  | setMasks (args : List Byte)
  /-- READ_COUNTERS (R168) -/
  | readCounters (args : List Byte)
  /-- SILENCE_TIMER_EXPIRY (R159) -/
  | silenceTimerExpiry
  /-- LIFETIME_EXPIRY (R19) of the record in a slot -/
  | lifetimeExpiry (slot : Fin 24)
  /-- BURST_EXPIRY (R20) of the record in a slot -/
  | burstExpiry (slot : Fin 24)
  /-- BURST_TOTAL_EXPIRY (R21) of the record in a slot -/
  | burstTotalExpiry (slot : Fin 24)
  /-- WAIT_LIMIT_EXPIRY (R22) of the record in a slot -/
  | waitLimitExpiry (slot : Fin 24)
  /-- PASS_TIMER_EXPIRY (R28) -/
  | passTimerExpiry
  /-- REQUEST_DELAY_EXPIRY (R28) -/
  | requestDelayExpiry
  /-- FOLD_LEVEL_CHANGE (R37): the FOLD line is now high (`true`, folded) or low (`false`, open) -/
  | foldLevelChange (high : Bool)
  /-- FOLD_SETTLE_EXPIRY (R37) -/
  | foldSettleExpiry
  /-- CELL_A_SAMPLE (R71): the readings of VCA in mV, ICA in mA and TCA in °C, before saturation -/
  | cellASample (v i t : Int) (order : SlotOrder)
  /-- CELL_OVERVOLTAGE_RUN (R91) of a cell -/
  | cellOvervoltageRun (x : Cell)
  /-- TERMINATION_RUN (R95) of a cell -/
  | terminationRun (x : Cell)
  /-- PRECHARGE_TIMER_EXPIRY (R99) of a cell -/
  | prechargeTimerExpiry (x : Cell)
  /-- FAST_TIMER_EXPIRY (R99) of a cell -/
  | fastTimerExpiry (x : Cell)
  /-- DISCHARGE_OVERCURRENT_RUN (R108) of a cell -/
  | dischargeOvercurrentRun (x : Cell)
  /-- CHARGE_OVERCURRENT_RUN (R109) of a cell -/
  | chargeOvercurrentRun (x : Cell)
  /-- CUTOFF_RUN (R111) of a cell -/
  | cutoffRun (x : Cell)
  /-- SYSTEM_LOAD_SAMPLE (R115): the reading of PSYS in mW, before saturation -/
  | systemLoadSample (pm : Int)
  /-- OVERDRAW_ON (R115) -/
  | overdrawOn
  /-- OVERDRAW_OFF (R116) -/
  | overdrawOff
  /-- HINGE_SLOT (R118): the start of a slot, with HSL found low (`true`) or high (`false`) -/
  | hingeSlot (hslLow : Bool)
  /-- POLL_COLLISION (R118) -/
  | pollCollision
  /-- POLL_COMPLETE (R118) -/
  | pollComplete
  /-- REPLY_WINDOW_EXPIRY (R119): `begun` says whether a start bit of the reply had begun -/
  | replyWindowExpiry (begun : Bool)
  /-- SAMPLE (R120): a SAMPLE read whole inside the window; `line` are the data bits of its nine bytes as they arrive on HSL, each
  byte least significant bit first (R170) -/
  | sample (line : List Bool) (order : SlotOrder)
  /-- FAR_BREAK (R121) -/
  | farBreak
  /-- HSL_BREAK_END (R121) -/
  | hslBreakEnd
  /-- FAILURE_RUN (R123) -/
  | failureRun
  /-- GOOD_RUN (R125) -/
  | goodRun (order : SlotOrder)
  /-- DEGRADED_TIMER_EXPIRY (R124) -/
  | degradedTimerExpiry
  /-- INPUT_SAMPLE (R130) of a port: the reading of its VIN line in mV, before saturation -/
  | inputSample (p : PortId) (vin : Int)
  /-- ATTACH_RUN (R130) of a port -/
  | attachRun (p : PortId)
  /-- DETACH_RUN (R131) of a port -/
  | detachRun (p : PortId)
  /-- INPUT_OVERVOLTAGE_RUN (R151) of a port -/
  | inputOvervoltageRun (p : PortId)
  /-- OFFER_WINDOW_EXPIRY (R136) of a port -/
  | offerWindowExpiry (p : PortId)
  /-- CONFIRM_TIMER_EXPIRY (R138) of a port -/
  | confirmTimerExpiry (p : PortId)
  /-- VERIFY_WINDOW_EXPIRY (R138) of a port -/
  | verifyWindowExpiry (p : PortId)
  /-- BREAK_TIMER_EXPIRY (R149) -/
  | breakTimerExpiry
  /-- DIE_SAMPLE (R152): the die temperature in °C, before saturation -/
  | dieSample (t : Int)
  /-- RSTN_RISE (R154) -/
  | rstnRise
  /-- BAD_REPLY_FRAMING (R119) -/
  | badReplyFraming (cause : FramingCause)
  deriving DecidableEq, Repr, Inhabited

end Sys2Proof
end

