-- ==== Sys2Proof/Decode.lean ====
section
/-! DEFINITION. The words of spec/opcode_table.json. No row of the table gives any bits (every row's "fields" is
empty, and none has a "fixed"), so no word spells a command: a command reaches the block by its lines, and a
frame's bytes are read by Machine/Link.lean. -/

namespace Sys2Proof

/-- The command that a word spells by the table's bits: none, since no row of the table gives bits. -/
def decodeTableWord (_nbits _w : Nat) : Option Instr := none

end Sys2Proof
end

