-- ==== Sys2Proof/Machine/Bytes.lean ====
section
/-! DEFINITION. Byte order, signed fields, packed bit fields and the CRC-8 of every frame, answer and SAMPLE (R170). -/

namespace Sys2Proof.Machine

/-- An unsigned field of any number of bytes, most significant byte first (R170). -/
def unsignedOf : List Byte → Nat
  | [] => 0
  | b :: bs => b.toNat * 256 ^ bs.length + unsignedOf bs

/-- The two's complement value of an `bits`-bit figure (R170). -/
def signedOf (bits n : Nat) : Int := if n < 2 ^ (bits - 1) then (n : Int) else (n : Int) - (2 : Int) ^ bits

/-- `n` bytes of a figure, most significant byte first (R170). -/
def bytesOf : Nat → Nat → List Byte
  | 0, _ => []
  | n + 1, v => BitVec.ofNat 8 (v / 256 ^ n) :: bytesOf n v

/-- `n` bytes of a signed figure, two's complement, most significant byte first (R170). -/
def signedBytesOf (n : Nat) (v : Int) : List Byte := bytesOf n (v % (256 : Int) ^ n).toNat

/-- The byte of eight bits, most significant bit first (R155). -/
def byteOfBits (b7 b6 b5 b4 b3 b2 b1 b0 : Bool) : Byte :=
  BitVec.ofNat 8 (b7.toNat * 128 + b6.toNat * 64 + b5.toNat * 32 + b4.toNat * 16 + b3.toNat * 8 + b2.toNat * 4 +
    b1.toNat * 2 + b0.toNat)

/-- The whole bytes of a stream of bits, most significant bit first; bits of an unfinished byte are not counted
(R155, R156). -/
def wholeBytes : List Bool → List Byte
  | b7 :: b6 :: b5 :: b4 :: b3 :: b2 :: b1 :: b0 :: rest => byteOfBits b7 b6 b5 b4 b3 b2 b1 b0 :: wholeBytes rest
  | _ => []

/-- The `w` low bits of a figure, most significant bit first (R170). -/
def bitsOf : Nat → Nat → List Bool
  | 0, _ => []
  | w + 1, v => v.testBit w :: bitsOf w v

/-- The bits in which a list of bytes crosses the control link, most significant bit first (R170). -/
def bitsOfBytes (bs : List Byte) : List Bool := bs.flatMap fun b => bitsOf 8 b.toNat

/-- The bits of a byte on the hinge sense line: a start bit at low level, the eight data bits least significant first, and a stop
bit at high level (R170, 7.1). -/
def lineFrame (b : Byte) : List Bool := false :: ((bitsOf 8 b.toNat).reverse ++ [true])

/-- The whole bytes of the data bits that arrive on the hinge sense line, each least significant bit first (R170). -/
def lineBytes : List Bool → List Byte
  | b0 :: b1 :: b2 :: b3 :: b4 :: b5 :: b6 :: b7 :: rest => byteOfBits b7 b6 b5 b4 b3 b2 b1 b0 :: lineBytes rest
  | _ => []

/-- A packed answer (R170): the fields one after another, each a width and a figure, with no gaps. The lists of R174
carry their trailing zero bits as a last field. -/
def packed (fields : List (Nat × Nat)) : List Byte := wholeBytes (fields.flatMap fun f => bitsOf f.1 f.2)

/-- One shift of the CRC-8 register (R170): polynomial x⁸ + x² + x + 1. -/
def crcShift (r : Byte) : Byte := if r.msb then (r <<< 1) ^^^ 0x07#8 else r <<< 1

/-- One byte into the CRC-8 register (R170). -/
def crcByte (r b : Byte) : Byte :=
  crcShift (crcShift (crcShift (crcShift (crcShift (crcShift (crcShift (crcShift (r ^^^ b))))))))

/-- The CRC-8 of a list of bytes, from FFh, with no final inversion (R170). -/
def crc8 (bs : List Byte) : Byte := bs.foldl crcByte 0xFF#8

end Sys2Proof.Machine
end

