-- ==== Sys2Proof/Config.lean ====
section
/-! DEFINITION. What the spec fixes as numbers, each with its rule, and the one order the spec leaves open that no
event of the table carries (a constant with no body: nothing proved can rest on its value). -/

namespace Sys2Proof.Config

/-- Pass timer, ms (R28). -/
def passPeriod : Nat := 20
/-- Request delay, ms (R28). -/
def requestDelay : Nat := 1
/-- Fold settling wait, ms (R37). -/
def foldSettle : Nat := 50
/-- Frame timer, ms (R155). -/
def frameLimit : Nat := 10
/-- Sample slots of every sampling block, ms (R71, R115, R118, R130, R152). -/
def slotPeriod : Nat := 10
/-- Burst total at which a burst is ended, ms (R21). -/
def burstTotalMax : Nat := 5000
/-- Degraded timer, ms (R123). -/
def degradedTime : Nat := 500
/-- The one byte of POLL (R175). -/
def pollCode : Byte := 0xC3#8
/-- Reply window, µs (R118). -/
def replyWindow : Nat := 2000
/-- The J262's own break, µs (R121). -/
def breakTime : Nat := 100
/-- Offer window, ms (8.1). -/
def offerWindow : Nat := 500
/-- Confirm timer, ms (8.1). -/
def confirmTime : Nat := 1000
/-- Verify window, ms (8.1). -/
def verifyWindow : Nat := 200
/-- Break-before-make wait of the arbiter, ms (R146). -/
def breakBeforeMake : Nat := 20
/-- Largest value of a stamp counter (R3). -/
def stampMax : Nat := 65535
/-- Clamp of the unaccounted draw, mW (R115). -/
def unaccountedMax : Nat := 65535

/-- Which port is re-evaluated first when an event re-evaluates both (R142, R152, R162): the spec names no order, and
the order shows only where both ports lose eligibility in one event. No body: every claim holds for both orders (DESIGN CHOICE,
log 15). -/
opaque coilReevaluatedFirst : Bool

end Sys2Proof.Config
end

