-- ==== Sys2Proof/Machine/State.lean ====
section
/-! DEFINITION. The state of the J262 as plain data, block by block (00_scope, Block overview), its reset value, and
the reasons a step can stop. Figures the spec derives from other state at every moment (L, the state of charge, the
discharge limit, the charge ceiling, the branch state, eligibility, the switch positions, the ATTN line) are functions
of State in Machine/Ops.lean and Machine/Flags.lean, not fields. -/

namespace Sys2Proof.Machine

/-! ### Pairs of like blocks -/

/-- A value for each of the two cells. -/
structure PerCell (α : Type) where
  a : α
  b : α
  deriving DecidableEq, Repr, Inhabited

/-- The value of one cell. -/
def PerCell.get {α : Type} (p : PerCell α) : Cell → α
  | .A => p.a
  | .B => p.b

/-- Replace the value of one cell. -/
def PerCell.set {α : Type} (p : PerCell α) (x : Cell) (v : α) : PerCell α :=
  match x with
  | .A => { p with a := v }
  | .B => { p with b := v }

/-- A value for each of the two ports. -/
structure PerPort (α : Type) where
  cable : α
  coil : α
  deriving DecidableEq, Repr, Inhabited

/-- The value of one port. -/
def PerPort.get {α : Type} (p : PerPort α) : PortId → α
  | .cable => p.cable
  | .coil => p.coil

/-- Replace the value of one port. -/
def PerPort.set {α : Type} (p : PerPort α) (x : PortId) (v : α) : PerPort α :=
  match x with
  | .cable => { p with cable := v }
  | .coil => { p with coil := v }

/-! ### The reservation table (1) -/

/-- Kind of a record (1.2). -/
inductive Kind where
  | steady | burst
  deriving DecidableEq, Repr, Inhabited

/-- Cause of a WAITING record (1.2). -/
inductive WaitCause where
  | noRoom | revoked
  deriving DecidableEq, Repr, Inhabited

/-- Cause of an ENDED record (1.2). -/
inductive EndCause where
  | lifetime | lapsed | overstay | waitLimit | abandoned
  deriving DecidableEq, Repr, Inhabited

/-- State of a record with its cause (R4). -/
inductive RecState where
  | pending
  | granted
  | waiting (cause : WaitCause)
  | ended (cause : EndCause)
  deriving DecidableEq, Repr, Inhabited

/-- Transfer direction of the equalizing record (1.2). -/
inductive Dir where
  | aToB | bToA
  deriving DecidableEq, Repr, Inhabited

/-- One record of the reservation table: the field table of section 1.2. Absent fields are `none`. -/
structure Record where
  owner : Nat
  prio : Nat
  kind : Kind
  st : RecState
  draw : Nat
  pendDraw : Option Nat
  /-- lifetime setting, s -/
  lifeSet : Nat
  /-- lifetime remaining, ms -/
  lifeRem : Option Nat
  /-- burst duration setting, ms; 0 for STEADY -/
  burstSet : Nat
  burstRem : Option Nat
  burstTot : Option Nat
  waitSet : Nat
  waitRem : Option Nat
  arrival : Nat
  grantStamp : Option Nat
  mark : Bool
  dir : Option Dir
  deriving DecidableEq, Repr, Inhabited

/-- A slot: its generation, kept while it is FREE (R2), and its record, `none` when it is FREE. -/
structure Slot where
  gen : Byte
  record : Option Record
  deriving DecidableEq, Repr, Inhabited

/-- What the reservation controller owns: the table and the two stamp counters (R3). -/
structure Table where
  slots : Vector Slot 24
  arrivals : Nat
  grants : Nat
  deriving DecidableEq, Repr

/-! ### The budget unit (2) -/

/-- Fold state (R37). -/
inductive Fold where
  | folded | opened
  deriving DecidableEq, Repr, Inhabited

/-- The published figures of the last pass (R48). `disLim` and `chgCeil` are the model's own note of the limits the
pass read, so that R62 ("as published to the most recent pass") can be stated (DESIGN CHOICE, log 20). -/
structure Published where
  S : Nat
  dA : Nat
  dB : Nat
  lossMax : Nat
  dBn : Nat
  T : Nat
  fold : Fold
  rh : Nat
  M : Nat
  H : Nat
  U : Nat
  L : Nat
  shed : Nat
  granted : Nat
  N : Int
  pA : Nat
  pB : Nat
  r : Nat
  eq : Option (RecState × Option Dir)
  disLim : PerCell Nat
  chgCeil : PerCell Nat
  deriving DecidableEq, Repr, Inhabited

/-- What the budget unit owns (R28, R31, R37), with the commands in force at the branch regulators and at the input
stage (R49). -/
structure Budget where
  /-- pass-requested mark -/
  mark : Bool
  /-- request delay remaining, ms, while it runs -/
  delay : Option Nat
  /-- pass timer remaining, ms -/
  passTimer : Nat
  /-- pass sequence, 0..15 -/
  seq : Fin 16
  pub : Published
  /-- cell current commands in force, mA -/
  cmd : PerCell Int
  /-- input current command in force, mA -/
  inputCmd : Option Nat
  fold : Fold
  /-- level of the FOLD line: high means folded -/
  foldHigh : Bool
  /-- fold wait remaining, ms, while it runs -/
  foldWait : Option Nat
  deriving DecidableEq, Repr

/-! ### Cell monitors (4) -/

/-- Temperature zone (R81). -/
inductive Zone where
  | cold | cool | normal | warm | hot
  deriving DecidableEq, Repr, Inhabited

/-- The fields of a cell record that are present after its first accepted sample (4.2). -/
structure Reading where
  v : Nat
  i : Int
  t : Int
  /-- far over-temperature flag (cell B; clear for cell A) -/
  farOt : Bool
  zone : Zone
  /-- charge count, mA·ms -/
  count : Nat
  deriving DecidableEq, Repr, Inhabited

/-- What a cell monitor owns. -/
structure Monitor where
  rd : Option Reading
  /-- estimated flag (cell B) -/
  estimated : Bool
  /-- the last slot handed to the monitor carried a failed outcome (R87) -/
  lastFailed : Bool
  deriving DecidableEq, Repr, Inhabited

/-! ### Hinge link controller (7) -/

/-- Cell B's data state (7). -/
inductive DataState where
  | awaiting | live | suspect | stale | degraded
  deriving DecidableEq, Repr, Inhabited

/-- Where the exchange of the present slot stands (R118, R119). -/
inductive Exchange where
  /-- no exchange in progress -/
  | ended
  /-- POLL is being sent: the bits of its frame on HSL (R175) -/
  | polling (sent : List Bool)
  /-- the reply window runs: its remaining time in µs, and whether the reply's start bit was seen -/
  | window (left : Nat) (begun : Bool)
  deriving DecidableEq, Repr, Inhabited

/-- An accepted far sample (R120): voltage, current, temperature, far over-temperature flag. -/
structure FarSample where
  v : Nat
  i : Int
  t : Int
  farOt : Bool
  deriving DecidableEq, Repr, Inhabited

/-- What the hinge link controller owns. -/
structure Hinge where
  exch : Exchange
  /-- the J262's own break: its remaining time in µs while HSL is held low (R121) -/
  brk : Option Nat
  dataState : DataState
  failRun : Nat
  goodRun : Nat
  /-- degraded timer remaining, ms, while it runs -/
  degTimer : Option Nat
  latest : Option FarSample
  lastSeq : Option Byte
  deriving DecidableEq, Repr, Inhabited

/-! ### Charge control (5) -/

/-- Cause of FAULT (R101). -/
inductive ChgFault where
  | overvoltage | prechargeTimeout | chargeTimeout
  deriving DecidableEq, Repr, Inhabited

/-- Charge phase, with its cause in FAULT (5). -/
inductive Phase where
  | off | precharge | fast | taper | full | hold
  | fault (cause : ChgFault)
  deriving DecidableEq, Repr, Inhabited

/-- The two timers of a charge session, remaining ms (R98). -/
structure Session where
  pre : Nat
  fast : Nat
  deriving DecidableEq, Repr, Inhabited

/-- One charge phase machine. -/
structure Charge where
  phase : Phase
  session : Option Session
  ovRun : Nat
  termRun : Nat
  /-- the target voltage last handed to the branch regulator (R89), mV -/
  regTarget : Nat
  deriving DecidableEq, Repr, Inhabited

/-! ### Branch protection (6) -/

/-- The four items and three runs of one cell's branch (6.1, R107). -/
structure Branch where
  isolated : Bool
  overcurrent : Bool
  chgOvercurrent : Bool
  overtemp : Bool
  cutoff : Bool
  disRun : Nat
  chgRun : Nat
  cutRun : Nat
  deriving DecidableEq, Repr, Inhabited

/-- Branch state worked from the items (R105). -/
inductive BranchState where
  | closed | chargeOnly | openFault | openIsolated
  deriving DecidableEq, Repr, Inhabited

/-! ### System load monitor (6.6) -/

/-- What the system load monitor owns. -/
structure Load where
  on : Bool
  U : Nat
  onRun : Nat
  offRun : Nat
  /-- latest system load sample, mW -/
  pm : Nat
  deriving DecidableEq, Repr, Inhabited

/-! ### Input ports (8) -/

/-- Reject cause (8.1). -/
inductive RejCause where
  | noCommon | unqualifiedDefault | outOfWindow | overvoltage
  deriving DecidableEq, Repr, Inhabited

/-- Port state (8.1). -/
inductive PortState where
  | detached | detecting | proposed | confirming | ready
  | rejected (cause : RejCause)
  | isolated
  deriving DecidableEq, Repr, Inhabited

/-- A source offer (R134): FIXED `v` at `imax`, or RANGE `vlo..vhi` at `imax`. -/
inductive Offer where
  | fixed (v imax : Nat)
  | range (vlo vhi imax : Nat)
  deriving DecidableEq, Repr, Inhabited

/-- Origin of a held contract; NEGOTIATED carries its offer index. -/
inductive Origin where
  | negotiated (offer : Nat)
  | defaulted
  | fallback
  deriving DecidableEq, Repr, Inhabited

/-- A held contract. -/
structure Held where
  v : Nat
  i : Nat
  origin : Origin
  deriving DecidableEq, Repr, Inhabited

/-- A proposed contract; also a result of selection (R135). -/
structure Proposal where
  v : Nat
  i : Nat
  offer : Nat
  entry : Nat
  deriving DecidableEq, Repr, Inhabited

/-- One port record. `timer` is the one timer of its state (offer window, confirm timer or verify window), ms. -/
structure Port where
  st : PortState
  offers : List Offer
  held : Option Held
  prop : Option Proposal
  ie : Nat
  vin : Nat
  attachRun : Nat
  detachRun : Nat
  ovRun : Nat
  timer : Option Nat
  deriving DecidableEq, Repr, Inhabited

/-! ### Source arbiter and die monitor (9) -/

/-- Arbiter state (9). -/
inductive ArbState where
  | none
  | active (p : PortId)
  | changeover
  deriving DecidableEq, Repr, Inhabited

/-- What the source arbiter owns; the switch positions are those of its state (R146). -/
structure Arbiter where
  st : ArbState
  /-- break timer remaining, ms, while it runs -/
  brk : Option Nat
  deriving DecidableEq, Repr, Inhabited

/-! ### Condition unit (11) -/

/-- The 26 conditions, in the order of the table of section 11.1. -/
inductive Condition where
  | shed | budgetCritical | overdraw | silenceRelease
  | inputAttach | inputDetach | contractProposed | contractReady | contractRejected
  | changeoverDone | inputOvervoltage | dieHot
  | chargeDone (x : Cell) | chargeFault (x : Cell) | branchFault (x : Cell) | zoneChange (x : Cell) | cutoff (x : Cell)
  | farStale | farDegraded | farRecovered | frameError
  deriving DecidableEq, Repr, Inhabited

/-- The eight counters, in the order of the table of section 11.4. -/
structure Counters where
  frameCheck : Nat
  framesShort : Nat
  framesTimeout : Nat
  farNoReply : Nat
  farBadReply : Nat
  farCollision : Nat
  recordsShed : Nat
  overdraws : Nat
  deriving DecidableEq, Repr, Inhabited

/-- What the condition unit owns: the flags and masks as the 26-bit fields the host reads (R172). -/
structure CondUnit where
  latched : BitVec 26
  masks : BitVec 26
  master : Bool
  recordAttn : Bool
  cnt : Counters
  deriving DecidableEq, Repr, Inhabited

/-! ### Limit set (10.6) -/

/-- A row of the derating table (R85). -/
structure DerateRow where
  /-- charge fraction, 256ths -/
  charge : Nat
  /-- target reduction, mV -/
  reduction : Nat
  /-- discharge fraction, 256ths -/
  discharge : Nat
  deriving DecidableEq, Repr, Inhabited

/-- The derating table, a row for each zone. -/
structure Derate where
  cold : DerateRow
  cool : DerateRow
  normal : DerateRow
  warm : DerateRow
  hot : DerateRow
  deriving DecidableEq, Repr, Inhabited

/-- An acceptance profile entry (R133); `imax` 0 marks it unused. -/
structure ProfileEntry where
  vlo : Nat
  vhi : Nat
  imax : Nat
  deriving DecidableEq, Repr, Inhabited

/-- Every limit item of section 10.6. -/
structure Limits where
  chgTarget : PerCell Nat
  fastI : PerCell Nat
  preI : PerCell Nat
  preV : Nat
  termI : PerCell Nat
  rechargeDrop : Nat
  preTimer : Nat
  fastTimer : Nat
  cutoffV : Nat
  hardDisI : PerCell Nat
  hardCount : Nat
  disRated : PerCell Nat
  degradedI : Nat
  zoneEdges : Vector Int 4
  derate : Derate
  profile : Vector ProfileEntry 4
  ceil : PerPort Nat
  defaultI : Nat
  cap : PerCell Nat
  rest : Vector Nat 11
  socKnee : Nat
  chargeEn : PerCell Nat
  etaIn : Nat
  margin : Nat
  admitHyst : Nat
  hingeROpen : Nat
  hingeRFolded : Nat
  balGain : Nat
  balDeadband : Nat
  eqEnable : Nat
  eqPower : Nat
  eqStart : Nat
  eqStop : Nat
  eqLoadMax : Nat
  etaEq : Nat
  odMargin : Nat
  odCount : Nat
  droopMargin : Nat
  cablePreferred : Nat
  silenceLimit : Nat
  deriving DecidableEq, Repr

/-- The defaults of section 10.6, R79, R81, R85 and R133. -/
def Limits.default : Limits where
  chgTarget := ⟨4400, 4400⟩
  fastI := ⟨2600, 1900⟩
  preI := ⟨200, 200⟩
  preV := 3000
  termI := ⟨130, 100⟩
  rechargeDrop := 100
  preTimer := 30
  fastTimer := 300
  cutoffV := 3000
  hardDisI := ⟨6000, 4500⟩
  hardCount := 2
  disRated := ⟨4000, 3000⟩
  degradedI := 500
  zoneEdges := #v[0, 15, 45, 55]
  derate :=
    { cold := ⟨0, 0, 64⟩, cool := ⟨128, 0, 192⟩, normal := ⟨256, 0, 256⟩, warm := ⟨128, 100, 192⟩, hot := ⟨0, 0, 128⟩ }
  profile := #v[⟨4400, 5600, 3000⟩, ⟨8400, 9600, 3000⟩, ⟨11400, 12600, 2250⟩, ⟨14400, 15600, 1800⟩]
  ceil := ⟨27000, 15000⟩
  defaultI := 500
  cap := ⟨2600, 1900⟩
  rest := #v[3000, 3450, 3580, 3650, 3700, 3750, 3820, 3900, 4000, 4120, 4380]
  socKnee := 100
  chargeEn := ⟨1, 1⟩
  etaIn := 236
  margin := 1000
  admitHyst := 500
  hingeROpen := 48
  hingeRFolded := 62
  balGain := 8
  balDeadband := 10
  eqEnable := 1
  eqPower := 1500
  eqStart := 80
  eqStop := 20
  eqLoadMax := 3000
  etaEq := 220
  odMargin := 500
  odCount := 3
  droopMargin := 300
  cablePreferred := 1
  silenceLimit := 0

/-! ### Control link port (10) -/

/-- Receiver state (R155). -/
inductive Receiver where
  | idle | receiving | discarding
  deriving DecidableEq, Repr, Inhabited

/-- Outcome of a frame (R158, R171). -/
inductive Outc where
  | done | doneClamped | badArg | badHandle | staleHandle | notOwner | wrongState | tableFull | locked
  | unknownCommand | frameShort | frameBadLength | frameBadCheck | frameTimeout | firstFrame
  deriving DecidableEq, Repr, Inhabited

/-- An answer as assembled in the answer buffer (R158). -/
structure Answer where
  status : Byte
  out : Outc
  payload : List Byte
  deriving DecidableEq, Repr, Inhabited

/-- What the control link port owns, with the levels of its input lines. -/
structure Link where
  rx : Receiver
  /-- level of LSEL -/
  lselHigh : Bool
  /-- RSTN is low and its control reset has been taken (R154) -/
  rstnLow : Bool
  /-- frame timer remaining, ms, while it runs -/
  frameTimer : Option Nat
  /-- the answer held in the buffer -/
  buffer : Option Answer
  /-- the answer moved to LDO at the last fall of LSEL that began a frame (DEDUCED, log 12) -/
  ldo : Option Answer
  /-- silence timer remaining, ms, while it runs -/
  silence : Option Nat
  deriving DecidableEq, Repr, Inhabited

/-- Time to the next sample slot of each sampling block, ms (R71, R115, R118, R130, R152). -/
structure Slots where
  cellA : Nat
  hinge : Nat
  load : Nat
  input : PerPort Nat
  die : Nat
  deriving DecidableEq, Repr, Inhabited

/-! ### The whole state -/

/-- The state of the J262, with the queue of the commands that wait, first in first out (DESIGN CHOICE, log 24). What the spec works
from other state is worked where it is read (DESIGN CHOICE, log 23). -/
structure State where
  link : Link
  resv : Table
  budget : Budget
  mon : PerCell Monitor
  hinge : Hinge
  chg : PerCell Charge
  br : PerCell Branch
  load : Load
  port : PerPort Port
  arb : Arbiter
  dieHot : Bool
  cond : CondUnit
  lim : Limits
  locked : Bool
  slots : Slots
  pending : List Instr
  deriving DecidableEq, Repr

/-- Why the machine would stop with a fault: never. Every row of the table is an event or a command for which the spec
gives the next state in every state, so there is no constructor and no step faults (safe; log 24). -/
inductive Fault where
  deriving DecidableEq, Repr

/-- Why a command has no meaning. -/
inductive Refusal where
  /-- raised by an arm of `exec` for a command that has no meaning yet (safe); no arm does so in this model -/
  | notModelled (mnemonic : String)
  deriving DecidableEq, Repr

/-! ### Reset values -/

/-- A FREE slot at generation 0 (R27). -/
def Slot.free : Slot := ⟨0, none⟩

/-- The empty table (R27). -/
def Table.reset : Table := ⟨Vector.replicate 24 Slot.free, 0, 0⟩

/-- The published figures after power-on reset: every figure 0 (R31), R_h and the fold state with them (DEDUCED, log 20). -/
def Published.reset : Published where
  S := 0
  dA := 0
  dB := 0
  lossMax := 0
  dBn := 0
  T := 0
  fold := .folded
  rh := 0
  M := 0
  H := 0
  U := 0
  L := 0
  shed := 0
  granted := 0
  N := 0
  pA := 0
  pB := 0
  r := 0
  eq := none
  disLim := ⟨0, 0⟩
  chgCeil := ⟨0, 0⟩

/-- The budget unit after power-on reset (R31, R37). -/
def Budget.reset : Budget where
  mark := false
  delay := none
  passTimer := Config.passPeriod
  seq := 0
  pub := Published.reset
  cmd := ⟨0, 0⟩
  inputCmd := none
  fold := .folded
  foldHigh := true
  foldWait := some Config.foldSettle

/-- A cell monitor after power-on reset: every field absent (R88). -/
def Monitor.reset : Monitor := ⟨none, false, false⟩

/-- The hinge link controller after power-on reset (R129). -/
def Hinge.reset : Hinge := ⟨.ended, none, .awaiting, 0, 0, none, none, none⟩

/-- A charge phase machine after power-on reset (R104). The regulator's target before the first evaluation is
CHG_TARGET's default (DESIGN CHOICE, log 3). -/
def Charge.reset : Charge := ⟨.off, none, 0, 0, 4400⟩

/-- A branch after power-on reset (R114). -/
def Branch.reset : Branch := ⟨false, false, false, false, false, 0, 0, 0⟩

/-- The system load monitor after power-on reset (R117). Pm before the first sample is 0 (DESIGN CHOICE, log 3). -/
def Load.reset : Load := ⟨false, 0, 0, 0, 0⟩

/-- A port after power-on reset (R145). -/
def Port.reset : Port := ⟨.detached, [], none, none, 0, 0, 0, 0, 0, none⟩

/-- The arbiter after power-on reset (R153). -/
def Arbiter.reset : Arbiter := ⟨.none, none⟩

/-- Every counter at 0. -/
def Counters.zero : Counters := ⟨0, 0, 0, 0, 0, 0, 0, 0⟩

/-- The condition unit after either reset (R169). -/
def CondUnit.reset : CondUnit := ⟨0, 0, true, true, Counters.zero⟩

/-- FIRST_FRAME as assembled at power-on reset: ATTN released, limits unlocked, arbiter in NONE, no equalizing record,
pass sequence 0, so the status byte is 0 (R158, R169). -/
def Answer.firstFrame : Answer := ⟨0, .firstFrame, []⟩

/-- The control link port after power-on reset, with LSEL high (DESIGN CHOICE, log 3) and the silence timer off, since
SILENCE_LIMIT's default is 0 (R155, R158, R159). -/
def Link.reset : Link := ⟨.idle, true, false, none, some Answer.firstFrame, none, none⟩

/-- Every first sample comes 10 ms after power-on reset (R71, R115, R118, R130, R152). -/
def Slots.reset : Slots :=
  ⟨Config.slotPeriod, Config.slotPeriod, Config.slotPeriod, ⟨Config.slotPeriod, Config.slotPeriod⟩, Config.slotPeriod⟩

/-- The J262 right after power-on reset, with no command waiting. -/
def State.reset : State where
  link := Link.reset
  resv := Table.reset
  budget := Budget.reset
  mon := ⟨Monitor.reset, Monitor.reset⟩
  hinge := Hinge.reset
  chg := ⟨Charge.reset, Charge.reset⟩
  br := ⟨Branch.reset, Branch.reset⟩
  load := Load.reset
  port := ⟨Port.reset, Port.reset⟩
  arb := Arbiter.reset
  dieHot := false
  cond := CondUnit.reset
  lim := Limits.default
  locked := false
  slots := Slots.reset
  pending := []

end Sys2Proof.Machine
end

