-- ==== Sys2Proof/Machine/Flags.lean ====
section
/-! DEFINITION. The flags of the condition unit: latching, counting, the ATTN line, and the status byte of an answer
(R25, R70, R158, R164 to R168, R171). -/

namespace Sys2Proof.Machine

/-- The bit of a condition in the 26-bit fields: its place in the table of section 11.1 (R172). -/
def Condition.bit : Condition → Fin 26
  | .shed => 0
  | .budgetCritical => 1
  | .overdraw => 2
  | .silenceRelease => 3
  | .inputAttach => 4
  | .inputDetach => 5
  | .contractProposed => 6
  | .contractReady => 7
  | .contractRejected => 8
  | .changeoverDone => 9
  | .inputOvervoltage => 10
  | .dieHot => 11
  | .chargeDone .A => 12
  | .chargeDone .B => 13
  | .chargeFault .A => 14
  | .chargeFault .B => 15
  | .branchFault .A => 16
  | .branchFault .B => 17
  | .zoneChange .A => 18
  | .zoneChange .B => 19
  | .cutoff .A => 20
  | .cutoff .B => 21
  | .farStale => 22
  | .farDegraded => 23
  | .farRecovered => 24
  | .frameError => 25

/-- The 26-bit field with one condition's bit set. -/
def Condition.flag (c : Condition) : BitVec 26 := 1#26 <<< c.bit.val

/-- A block hands a condition to the condition unit, which sets its latched flag, masked or not (R164). -/
def latch (c : Condition) (s : State) : State :=
  { s with cond := { s.cond with latched := s.cond.latched ||| c.flag } }

/-- Latch a list of conditions within one event. -/
def latchAll (cs : List Condition) (s : State) : State := cs.foldl (fun t c => latch c t) s

/-- Whether a condition is latched. -/
def isLatched (c : Condition) (s : State) : Bool := s.cond.latched.getLsbD c.bit.val

/-- The counters by name (R168). -/
inductive CounterId where
  | frameCheck | framesShort | framesTimeout | farNoReply | farBadReply | farCollision | recordsShed | overdraws
  deriving DecidableEq, Repr, Inhabited

/-- A counter's figure. -/
def Counters.get (c : Counters) : CounterId → Nat
  | .frameCheck => c.frameCheck
  | .framesShort => c.framesShort
  | .framesTimeout => c.framesTimeout
  | .farNoReply => c.farNoReply
  | .farBadReply => c.farBadReply
  | .farCollision => c.farCollision
  | .recordsShed => c.recordsShed
  | .overdraws => c.overdraws

/-- One more, unless it already stands at 255, where it stays (R168). -/
def satCount (n : Nat) : Nat := if n < 255 then n + 1 else n

/-- Add one to a counter (R168). -/
def Counters.bump (c : Counters) : CounterId → Counters
  | .frameCheck => { c with frameCheck := satCount c.frameCheck }
  | .framesShort => { c with framesShort := satCount c.framesShort }
  | .framesTimeout => { c with framesTimeout := satCount c.framesTimeout }
  | .farNoReply => { c with farNoReply := satCount c.farNoReply }
  | .farBadReply => { c with farBadReply := satCount c.farBadReply }
  | .farCollision => { c with farCollision := satCount c.farCollision }
  | .recordsShed => { c with recordsShed := satCount c.recordsShed }
  | .overdraws => { c with overdraws := satCount c.overdraws }

/-- A block hands a count to the condition unit (R168). -/
def count (i : CounterId) (s : State) : State :=
  { s with cond := { s.cond with cnt := s.cond.cnt.bump i } }

/-- Whether some record of the table carries a change mark (R25, R165). -/
def anyMark (t : Table) : Bool := t.slots.toList.any fun sl => sl.record.any fun r => r.mark

/-- Whether the condition unit drives ATTN low (R165). -/
def attnActive (s : State) : Bool :=
  s.cond.master && ((s.cond.latched &&& ~~~s.cond.masks) != 0#26 || (s.cond.recordAttn && anyMark s.resv))

/-- Whether the equalizing record is GRANTED: the "equalizing" indication (R70). -/
def equalizing (s : State) : Bool :=
  match s.resv.slots[0].record with
  | some r => r.st == .granted
  | none => false

/-- The port the arbiter has active, if any. -/
def activePort (s : State) : Option PortId :=
  match s.arb.st with
  | .active p => some p
  | .none => none
  | .changeover => none

/-- The status byte, assembled when the answer is placed (R158, R171). -/
def statusByte (s : State) : Byte :=
  BitVec.ofNat 8 ((attnActive s).toNat * 128 + s.locked.toNat * 64 + (activePort s).isSome.toNat * 32 +
    (equalizing s).toNat * 16 + s.budget.seq.val)

/-- The code of an outcome (R171). -/
def Outc.code : Outc → Byte
  | .done => 0x00
  | .doneClamped => 0x01
  | .badArg => 0x10
  | .badHandle => 0x11
  | .staleHandle => 0x12
  | .notOwner => 0x13
  | .wrongState => 0x14
  | .tableFull => 0x15
  | .locked => 0x16
  | .unknownCommand => 0x17
  | .frameShort => 0x20
  | .frameBadLength => 0x21
  | .frameBadCheck => 0x22
  | .frameTimeout => 0x23
  | .firstFrame => 0x30

/-- The four groups of conditions, as their bits in the 26-bit field (11.1, R166). -/
def groupMasks : List (BitVec 26) := [0x000000F#26, 0x0000FF0#26, 0x03FF000#26, 0x3C00000#26]

/-- The pair of summary bits of one group: any latched, then any latched and unmasked (R166). -/
def groupPair (u : CondUnit) (g : BitVec 26) : Nat :=
  ((u.latched &&& g) != 0#26).toNat * 2 + ((u.latched &&& g &&& ~~~u.masks) != 0#26).toNat

/-- The summaries byte: a pair of bits for Records, Source, Cells and Link, from bit 7 down (R166, R172). -/
def summaries (u : CondUnit) : Byte :=
  BitVec.ofNat 8 (groupMasks.foldl (fun acc g => acc * 4 + groupPair u g) 0)

end Sys2Proof.Machine
end

