-- ==== Sys2Proof/Machine/Ops.lean ====
section
/-! DEFINITION. The shared operations: the figures the blocks publish to each other, worked from State at every moment,
and the small updates every event is built from. -/

namespace Sys2Proof.Machine

/-! ### Saturation and rounding -/

/-- A reading beyond a range saturates at the nearer end (R71, R115, R130, R152). -/
def clampInt (lo hi v : Int) : Int := if v < lo then lo else if hi < v then hi else v

/-- A figure held within a range. -/
def clampNat (lo hi v : Nat) : Nat := if v < lo then lo else if hi < v then hi else v

/-- A quotient rounded up ("ceil", 00_scope, Arithmetic). -/
def ceilDiv (n d : Nat) : Nat := (n + d - 1) / d

/-- |a − b| of two figures. -/
def absDiff (a b : Nat) : Nat := if a ≤ b then b - a else a - b

/-! ### Pass requests (R28, R29) -/

/-- A block sets the pass-requested mark; if it was clear, the request delay starts (R28). -/
def requestPass (s : State) : State :=
  if s.budget.mark then s
  else { s with budget := { s.budget with mark := true, delay := some Config.requestDelay } }

/-- A pass is requested where a condition holds. -/
def requestPassIf (c : Bool) (s : State) : State := if c then requestPass s else s

/-! ### The reservation table (R4) -/

/-- The slot of a number. -/
def slotOf (s : State) (k : Fin 24) : Slot := s.resv.slots[k]

/-- The record of a slot, if it holds one. -/
def recordOf (s : State) (k : Fin 24) : Option Record := (slotOf s k).record

/-- Replace the record of a slot, keeping its generation. -/
def putRecord (k : Fin 24) (r : Record) (s : State) : State :=
  { s with resv := { s.resv with slots := s.resv.slots.set k { slotOf s k with record := some r } } }

/-- A slot goes from holding a record to FREE: its generation increases by one, 255 going back to 0 (R2). -/
def freeSlot (k : Fin 24) (s : State) : State :=
  { s with resv := { s.resv with slots := s.resv.slots.set k ⟨(slotOf s k).gen + 1, none⟩ } }

/-- The draw a slot counts in the granted sum (R4). -/
def grantedDraw (sl : Slot) : Nat :=
  match sl.record with
  | some r => if r.st = .granted then r.draw else 0
  | none => 0

/-- The live granted sum L: the sum of the draws of all GRANTED records (R4). -/
def grantedSum (s : State) : Nat := (s.resv.slots.toList.map grantedDraw).sum

/-- The draw E of the equalizing record while it is GRANTED (R51). -/
def equalizerDraw (s : State) : Nat := grantedDraw (slotOf s 0)

/-- A stamp counter increases by one and stays at 65,535 (R3). -/
def nextStamp (n : Nat) : Nat := if n < Config.stampMax then n + 1 else n

/-! ### Cell records (4) -/

/-- The reading of a cell, if it has had an accepted sample since power-on reset (R73). -/
def readingOf (s : State) (x : Cell) : Option Reading := (s.mon.get x).rd

/-- A cell's voltage as every other block uses it: 0 before its first accepted sample (R73). -/
def cellVolt (s : State) (x : Cell) : Nat :=
  match readingOf s x with
  | some r => r.v
  | none => 0

/-- The full charge count of a cell, mA·ms (4.3). -/
def fullCount (l : Limits) (x : Cell) : Nat := l.cap.get x * 3600000

/-- The state of charge of a charge count, per mille (R76). -/
def socOf (l : Limits) (x : Cell) (c : Nat) : Nat := c * 1000 / fullCount l x

/-- A cell's state of charge, absent with its count (R76). -/
def soc (s : State) (x : Cell) : Option Nat := (readingOf s x).map fun r => socOf s.lim x r.count

/-- The data state of a cell: cell A is always LIVE (4.2). -/
def dataStateOf (s : State) : Cell → DataState
  | .A => .live
  | .B => s.hinge.dataState

/-- The row of the derating table for a zone (R85). -/
def Derate.row (d : Derate) : Zone → DerateRow
  | .cold => d.cold
  | .cool => d.cool
  | .normal => d.normal
  | .warm => d.warm
  | .hot => d.hot

/-- The row of the cell's present zone; a cell with no zone uses 0 for every figure (R83). -/
def derateOf (s : State) (x : Cell) : DerateRow :=
  match readingOf s x with
  | some r => s.lim.derate.row r.zone
  | none => ⟨0, 0, 0⟩

/-! ### Branch state (R105) -/

/-- The branch state worked from the four items, in order of precedence (R105). -/
def Branch.state (b : Branch) : BranchState :=
  if b.isolated then .openIsolated
  else if b.overcurrent || b.chgOvercurrent || b.overtemp then .openFault
  else if b.cutoff then .chargeOnly
  else .closed

/-- The branch state of a cell. -/
def branchState (s : State) (x : Cell) : BranchState := (s.br.get x).state

/-- Whether a branch state passes no current either way. -/
def BranchState.isOpen : BranchState → Bool
  | .openFault => true
  | .openIsolated => true
  | .closed => false
  | .chargeOnly => false

/-- Whether a branch state forbids a command: CHARGE_ONLY forbids a negative one, the OPEN states any but 0 (R106). -/
def BranchState.forbids (b : BranchState) (c : Int) : Bool :=
  match b with
  | .closed => false
  | .chargeOnly => c < 0
  | .openFault => c != 0
  | .openIsolated => c != 0

/-! ### Published limits -/

/-- The knee of the discharge limit (R86, step 2). -/
def kneeLimit (l : Limits) (s idis : Nat) : Nat :=
  if 0 < l.socKnee ∧ s < l.socKnee then idis * s / l.socKnee else idis

/-- The published discharge limit Idis_x, mA (R86). -/
def disLimit (s : State) (x : Cell) : Nat :=
  match readingOf s x with
  | none => 0
  | some r =>
    if branchState s x = .closed then
      let byZone := s.lim.disRated.get x * (s.lim.derate.row r.zone).discharge / 256
      let byKnee := kneeLimit s.lim (socOf s.lim x r.count) byZone
      if dataStateOf s x = .degraded then min byKnee s.lim.degradedI else byKnee
    else 0

/-- The published charge ceiling current Ichg_x, mA (R102). It follows a written charge fraction at once, as R102 says, and not from
the cell's next evaluation, as R85 says (DESIGN CHOICE, log 30). -/
def chgCeiling (s : State) (x : Cell) : Nat :=
  match (s.chg.get x).phase with
  | .precharge => s.lim.preI.get x
  | .fast => s.lim.fastI.get x * (derateOf s x).charge / 256
  | .taper => s.lim.fastI.get x * (derateOf s x).charge / 256
  | .off => 0
  | .full => 0
  | .hold => 0
  | .fault _ => 0

/-- The commanded charge current of a cell: its command in force when positive, and 0 otherwise (R64). -/
def chargeCommand (s : State) (x : Cell) : Nat := (s.budget.cmd.get x).toNat

/-- Set a cell's current command in force (R49). -/
def setCmd (x : Cell) (c : Int) (s : State) : State :=
  { s with budget := { s.budget with cmd := s.budget.cmd.set x c } }

/-! ### Input ports (8) -/

/-- The ceiling P of a port, halved with the halving rounded down while the die zone is HOT (R132). -/
def portCeiling (s : State) (p : PortId) : Nat := if s.dieHot then s.lim.ceil.get p / 2 else s.lim.ceil.get p

/-- The ceiling current at a voltage: floor(P × 1000 / V) rounded down to a multiple of 10 mA (R132). -/
def ceilCurrent (P V : Nat) : Nat := P * 1000 / V / 10 * 10

/-- Whether a port is eligible: it holds a contract and is READY, PROPOSED or CONFIRMING (R139). -/
def Port.eligible (q : Port) : Bool :=
  q.held.isSome && (q.st == .ready || q.st == .proposed || q.st == .confirming)

/-- Whether a port of the state is eligible. -/
def eligible (s : State) (p : PortId) : Bool := (s.port.get p).eligible

/-- The other port. -/
def otherPort : PortId → PortId
  | .cable => .coil
  | .coil => .cable

/-- The port that CABLE_PREFERRED prefers (R146). -/
def preferredPort (l : Limits) : PortId := if l.cablePreferred = 1 then .cable else .coil

/-- Whether the input switch of a port is closed: closed just while the arbiter has that port active (R146). -/
def switchClosed (s : State) (p : PortId) : Bool := activePort s == some p

/-! ### The hinge resistance (R38) -/

/-- The hinge resistance R_h in force (R38). -/
def hingeR (s : State) : Nat :=
  match s.budget.fold with
  | .folded => s.lim.hingeRFolded
  | .opened => s.lim.hingeROpen

/-! ### Answers (R158) -/

/-- Place an answer in the buffer, replacing the one held there; its status byte is assembled now (R158). -/
def placeAnswer (out : Outc) (payload : List Byte) (s : State) : State :=
  { s with link := { s.link with buffer := some ⟨statusByte s, out, payload⟩ } }

/-- What a command leaves: the state its effect gives, its outcome and its payload (R157). -/
structure Result where
  st : State
  out : Outc
  payload : List Byte
  deriving DecidableEq, Repr

/-- A refused command changes nothing (R158). -/
def refuse (s : State) (out : Outc) : Result := ⟨s, out, []⟩

/-- A command carried out with an empty payload. -/
def doneWith (s : State) : Result := ⟨s, .done, []⟩

end Sys2Proof.Machine
end

