-- ==== Sys2Proof/Machine/Charge.lean ====
section
/-! DEFINITION. Charge control: one charge phase machine per cell (chapter 5). -/

namespace Sys2Proof.Machine

/-! ### Updates -/

/-- Replace the charge phase machine of a cell. -/
def putCharge (x : Cell) (c : Charge) (s : State) : State := { s with chg := s.chg.set x c }

/-- Replace the machine of a cell; a change of its phase requests a pass (R29). -/
def moveCharge (x : Cell) (c : Charge) (s : State) : State :=
  requestPassIf (c.phase != (s.chg.get x).phase) (putCharge x c s)

/-- An anchor sets a cell's charge count to one end of its range (R77). -/
def anchorCount (x : Cell) (c : Nat) (s : State) : State :=
  match readingOf s x with
  | none => s
  | some r => { s with mon := s.mon.set x { s.mon.get x with rd := some { r with count := c } } }

/-! ### Figures (R89) -/

/-- The target voltage of a cell: CHG_TARGET_x less the target reduction of its zone (R89). -/
def targetVolt (s : State) (x : Cell) : Nat := s.lim.chgTarget.get x - (derateOf s x).reduction

/-- The recharge threshold: the target less RECHARGE_DROP (R89). -/
def rechargeVolt (s : State) (x : Cell) : Nat := targetVolt s x - s.lim.rechargeDrop

/-! ### Entries -/

/-- Entry to FULL: the session ends, the termination run is 0, the count is anchored to full and CHARGE_DONE_x is latched
(R95). -/
def enterFull (x : Cell) (s : State) : State :=
  latch (.chargeDone x) (anchorCount x (fullCount s.lim x)
    (moveCharge x { s.chg.get x with phase := .full, session := none, termRun := 0 } s))

/-- Entry to FAULT with a cause (R101). -/
def enterChgFault (x : Cell) (c : ChgFault) (s : State) : State :=
  latch (.chargeFault x)
    (moveCharge x { s.chg.get x with phase := .fault c, session := none, ovRun := 0, termRun := 0 } s)

/-- Entry to HOLD: the session and its timers are kept, the termination run is 0 (R97). -/
def enterHold (x : Cell) (s : State) : State := moveCharge x { s.chg.get x with phase := .hold, termRun := 0 } s

/-- The timers of a new session, both full (R98). -/
def newSession (l : Limits) : Session := ⟨l.preTimer * 60000, l.fastTimer * 60000⟩

/-- Entry to a charging phase with a new session (R92, R96, R98). -/
def beginSession (x : Cell) (p : Phase) (s : State) : State :=
  moveCharge x { s.chg.get x with phase := p, session := some (newSession s.lim) } s

/-- Entry to OFF: the session is discarded, the termination run is 0 (R100, R104). -/
def enterOff (x : Cell) (s : State) : State :=
  moveCharge x { s.chg.get x with phase := .off, session := none, termRun := 0 } s

/-! ### Tests of a slot (R90 to R97) -/

/-- Whether a data state holds charge: AWAITING, STALE or DEGRADED (R97). -/
def DataState.holds : DataState → Bool
  | .awaiting => true
  | .stale => true
  | .degraded => true
  | .live => false
  | .suspect => false

/-- Whether a hold condition applies to a cell (R97). -/
def holdCondition (s : State) (x : Cell) : Bool :=
  (derateOf s x).charge == 0 || (dataStateOf s x).holds || s.lim.chargeEn.get x == 0 || (branchState s x).isOpen

/-- Whether every start condition of R92 holds: an active input, and none of the hold conditions. -/
def startCondition (s : State) (x : Cell) : Bool := (activePort s).isSome && !holdCondition s x

/-- The start test in OFF (R92). -/
def startTest (x : Cell) (v : Nat) (s : State) : State :=
  if startCondition s x then
    if v < s.lim.preV then beginSession x .precharge s
    else if v < rechargeVolt s x then beginSession x .fast s
    else enterFull x s
  else s

/-- The resume test in HOLD: placed by the voltage table of R92, with the session kept (R97). -/
def resumeTest (x : Cell) (v : Nat) (s : State) : State :=
  if holdCondition s x then s
  else if v < s.lim.preV then moveCharge x { s.chg.get x with phase := .precharge } s
  else if v < rechargeVolt s x then moveCharge x { s.chg.get x with phase := .fast } s
  else enterFull x s

/-- The recharge test in FULL (R96). -/
def rechargeTest (x : Cell) (v : Nat) (s : State) : State :=
  if v < rechargeVolt s x ∧ holdCondition s x = false then beginSession x .fast s else s

/-- The test of PRECHARGE (R93). -/
def prechargeTest (x : Cell) (v : Nat) (s : State) : State :=
  if s.lim.preV + 100 ≤ v then moveCharge x { s.chg.get x with phase := .fast } s else s

/-- The test of FAST (R94). -/
def fastTest (x : Cell) (v : Nat) (s : State) : State :=
  if targetVolt s x ≤ v then moveCharge x { s.chg.get x with phase := .taper, termRun := 0 } s else s

/-- The termination run after a sample of current `i` (R95). -/
def termRunAfter (s : State) (x : Cell) (i : Int) : Nat :=
  if s.lim.termI.get x ≤ chargeCommand s x ∧ i < s.lim.termI.get x then (s.chg.get x).termRun + 1 else 0

/-- The test of TAPER (R95). -/
def taperTest (x : Cell) (i : Int) (s : State) : State :=
  let n := termRunAfter s x i
  if 3 ≤ n then enterFull x s else putCharge x { s.chg.get x with termRun := n } s

/-- The phase tests of an accepted sample, after the overvoltage run (R90, steps 2 to 6). -/
def phaseTests (x : Cell) (v : Nat) (i : Int) (s : State) : State :=
  match (s.chg.get x).phase with
  | .fault _ => s
  | .off => startTest x v s
  | .precharge => if holdCondition s x then enterHold x s else prechargeTest x v s
  | .fast => if holdCondition s x then enterHold x s else fastTest x v s
  | .taper => if holdCondition s x then enterHold x s else taperTest x i s
  | .hold => resumeTest x v s
  | .full => rechargeTest x v s

/-- The hold test at a slot that carries held values: no other test is made there (R90). -/
def heldSlotTest (x : Cell) (s : State) : State :=
  match (s.chg.get x).phase with
  | .precharge => if holdCondition s x then enterHold x s else s
  | .fast => if holdCondition s x then enterHold x s else s
  | .taper => if holdCondition s x then enterHold x s else s
  | .off => s
  | .full => s
  | .hold => s
  | .fault _ => s

/-- Whether a phase is FAULT. -/
def Phase.isFault : Phase → Bool
  | .fault _ => true
  | .off => false
  | .precharge => false
  | .fast => false
  | .taper => false
  | .full => false
  | .hold => false

/-- The overvoltage run after an accepted sample of voltage `v` (R91). -/
def ovRunAfter (s : State) (x : Cell) (v : Nat) : Nat :=
  if targetVolt s x + 100 < v then (s.chg.get x).ovRun + 1 else 0

/-- Charge control evaluates an accepted sample (R90): the overvoltage run first, then the tests of the phase. -/
def evalAccepted (x : Cell) (v : Nat) (i : Int) (s : State) : State :=
  if (s.chg.get x).phase.isFault then s
  else
    let n := ovRunAfter s x v
    if 3 ≤ n then enterChgFault x .overvoltage s
    else phaseTests x v i (putCharge x { s.chg.get x with ovRun := n } s)

/-- The target in force is handed to the cell's branch regulator at each evaluation (R89), a slot with held values among them
(DESIGN CHOICE, log 27). -/
def handTarget (x : Cell) (s : State) : State :=
  putCharge x { s.chg.get x with regTarget := targetVolt s x } s

/-- Charge control takes a sample slot of a cell (R90). A cell with no record is not evaluated (R89). That a slot with held values,
where R90 has the hold test made "and nothing else", hands the target anew to the regulator as R89's "whenever it evaluates that
cell" has it, is the model's choice (DESIGN CHOICE, log 27). -/
def chargeSlot (x : Cell) (accepted : Bool) (s : State) : State :=
  match readingOf s x with
  | none => s
  | some r => if accepted then evalAccepted x r.v r.i (handTarget x s) else heldSlotTest x (handTarget x s)

/-! ### Timers, loss of the input, CLEAR_FAULT and reset -/

/-- The precharge timer, which runs in PRECHARGE, has reached 0 (R98, R99). -/
def Charge.prechargeDue (c : Charge) : Bool := c.phase == .precharge && c.session.any fun q => q.pre == 0

/-- The fast timer, which runs in FAST and TAPER, has reached 0 (R98, R99). -/
def Charge.fastDue (c : Charge) : Bool := (c.phase == .fast || c.phase == .taper) && c.session.any fun q => q.fast == 0

/-- The precharge timer's expiry (R99). -/
def prechargeExpiry (x : Cell) (s : State) : State :=
  if (s.chg.get x).prechargeDue then enterChgFault x .prechargeTimeout s else s

/-- The fast timer's expiry (R99). -/
def fastExpiry (x : Cell) (s : State) : State :=
  if (s.chg.get x).fastDue then enterChgFault x .chargeTimeout s else s

/-- The overvoltage run of a cell reaches 3 (R91): from whatever phase but FAULT, once the cell has samples. -/
def overvoltageRun (x : Cell) (s : State) : State :=
  if (readingOf s x).isSome ∧ (s.chg.get x).phase.isFault = false then enterChgFault x .overvoltage s else s

/-- The termination run of a cell reaches 3 in TAPER (R95). -/
def terminationRun (x : Cell) (s : State) : State :=
  if (s.chg.get x).phase = .taper then enterFull x s else s

/-- The loss of the active input, for one cell: from any phase but FAULT to OFF (R100). -/
def lossOfInputAt (x : Cell) (s : State) : State :=
  if (s.chg.get x).phase.isFault then s else enterOff x s

/-- The loss of the active input (R100). -/
def lossOfInput (s : State) : State := lossOfInputAt .B (lossOfInputAt .A s)

/-- CLEAR_FAULT has charge control take a cell from FAULT to OFF, dropping the cause (R101, R113). -/
def clearChgFault (x : Cell) (s : State) : State :=
  if (s.chg.get x).phase.isFault then enterOff x s else s

/-- The control reset step of one machine (R104). -/
def resetCharge (x : Cell) (s : State) : State :=
  moveCharge x { s.chg.get x with phase := .off, session := none, ovRun := 0, termRun := 0 } s

end Sys2Proof.Machine
end

