-- ==== Sys2Proof/Machine/Limits.lean ====
section
/-! DEFINITION. The limit items: their identifiers and indexes (R172), ranges, defaults and locks (10.6), the clamps of a
write (R79, R81, R133, R160) and the range a read reports (R163). -/

namespace Sys2Proof.Machine

/-- A single limit item: every item of section 10.6 but the four tables. -/
inductive Item where
  | chgTarget (x : Cell) | fastI (x : Cell) | preI (x : Cell) | preV | termI (x : Cell) | rechargeDrop
  | preTimer | fastTimer | cutoffV | hardDisI (x : Cell) | hardCount | disRated (x : Cell) | degradedI
  | ceil (p : PortId) | defaultI | cap (x : Cell) | socKnee | chargeEn (x : Cell) | etaIn | margin | admitHyst
  | hingeROpen | hingeRFolded | balGain | balDeadband | eqEnable | eqPower | eqStart | eqStop | eqLoadMax | etaEq
  | odMargin | odCount | droopMargin | cablePreferred | silenceLimit
  deriving DecidableEq, Repr, Inhabited

/-- A column of the derating table (R85, R172). -/
inductive DerateCol where
  | charge | reduction | discharge
  deriving DecidableEq, Repr, Inhabited

/-- What an identifier and an index name (R160, R172). -/
inductive LimitAddr where
  | item (i : Item)
  | edge (k : Fin 4)
  | derate (z : Zone) (c : DerateCol)
  | profile (k : Fin 4)
  | rest (k : Fin 11)
  deriving DecidableEq, Repr, Inhabited

/-- The single item of an identifier: the items numbered in the order of the table, from 01h (R172). -/
def itemOfId (id : Nat) : Option Item :=
  match id with
  | 0x01 => some (.chgTarget .A)
  | 0x02 => some (.chgTarget .B)
  | 0x03 => some (.fastI .A)
  | 0x04 => some (.fastI .B)
  | 0x05 => some (.preI .A)
  | 0x06 => some (.preI .B)
  | 0x07 => some .preV
  | 0x08 => some (.termI .A)
  | 0x09 => some (.termI .B)
  | 0x0A => some .rechargeDrop
  | 0x0B => some .preTimer
  | 0x0C => some .fastTimer
  | 0x0D => some .cutoffV
  | 0x0E => some (.hardDisI .A)
  | 0x0F => some (.hardDisI .B)
  | 0x10 => some .hardCount
  | 0x11 => some (.disRated .A)
  | 0x12 => some (.disRated .B)
  | 0x13 => some .degradedI
  | 0x17 => some (.ceil .cable)
  | 0x18 => some (.ceil .coil)
  | 0x19 => some .defaultI
  | 0x1A => some (.cap .A)
  | 0x1B => some (.cap .B)
  | 0x1D => some .socKnee
  | 0x1E => some (.chargeEn .A)
  | 0x1F => some (.chargeEn .B)
  | 0x20 => some .etaIn
  | 0x21 => some .margin
  | 0x22 => some .admitHyst
  | 0x23 => some .hingeROpen
  | 0x24 => some .hingeRFolded
  | 0x25 => some .balGain
  | 0x26 => some .balDeadband
  | 0x27 => some .eqEnable
  | 0x28 => some .eqPower
  | 0x29 => some .eqStart
  | 0x2A => some .eqStop
  | 0x2B => some .eqLoadMax
  | 0x2C => some .etaEq
  | 0x2D => some .odMargin
  | 0x2E => some .odCount
  | 0x2F => some .droopMargin
  | 0x30 => some .cablePreferred
  | 0x31 => some .silenceLimit
  | _ => none

/-- The zone of a code, COLD 0 to HOT 4 (R172). -/
def zoneOfCode (n : Nat) : Option Zone :=
  match n with
  | 0 => some .cold
  | 1 => some .cool
  | 2 => some .normal
  | 3 => some .warm
  | 4 => some .hot
  | _ => none

/-- The column of a code (R172). -/
def colOfCode (n : Nat) : Option DerateCol :=
  match n with
  | 0 => some .charge
  | 1 => some .reduction
  | 2 => some .discharge
  | _ => none

/-- What an identifier and an index name; none for an unknown identifier or an index outside the item's table. The index
of a single item must be 0 (R160, R172). -/
def limitAddr (id idx : Nat) : Option LimitAddr :=
  match id with
  | 0x14 => if h : idx < 4 then some (.edge ⟨idx, h⟩) else none
  | 0x15 =>
    match zoneOfCode (idx / 16), colOfCode (idx % 16) with
    | some z, some c => some (.derate z c)
    | _, _ => none
  | 0x16 => if h : 1 ≤ idx ∧ idx ≤ 4 then some (.profile ⟨idx - 1, by omega⟩) else none
  | 0x1C => if h : idx < 11 then some (.rest ⟨idx, h⟩) else none
  | _ => if idx = 0 then (itemOfId id).map .item else none

/-- The stored value of a single item. -/
def Limits.get (l : Limits) : Item → Nat
  | .chgTarget x => l.chgTarget.get x
  | .fastI x => l.fastI.get x
  | .preI x => l.preI.get x
  | .preV => l.preV
  | .termI x => l.termI.get x
  | .rechargeDrop => l.rechargeDrop
  | .preTimer => l.preTimer
  | .fastTimer => l.fastTimer
  | .cutoffV => l.cutoffV
  | .hardDisI x => l.hardDisI.get x
  | .hardCount => l.hardCount
  | .disRated x => l.disRated.get x
  | .degradedI => l.degradedI
  | .ceil p => l.ceil.get p
  | .defaultI => l.defaultI
  | .cap x => l.cap.get x
  | .socKnee => l.socKnee
  | .chargeEn x => l.chargeEn.get x
  | .etaIn => l.etaIn
  | .margin => l.margin
  | .admitHyst => l.admitHyst
  | .hingeROpen => l.hingeROpen
  | .hingeRFolded => l.hingeRFolded
  | .balGain => l.balGain
  | .balDeadband => l.balDeadband
  | .eqEnable => l.eqEnable
  | .eqPower => l.eqPower
  | .eqStart => l.eqStart
  | .eqStop => l.eqStop
  | .eqLoadMax => l.eqLoadMax
  | .etaEq => l.etaEq
  | .odMargin => l.odMargin
  | .odCount => l.odCount
  | .droopMargin => l.droopMargin
  | .cablePreferred => l.cablePreferred
  | .silenceLimit => l.silenceLimit

/-- Store a value in a single item. -/
def Limits.put (l : Limits) (i : Item) (v : Nat) : Limits :=
  match i with
  | .chgTarget x => { l with chgTarget := l.chgTarget.set x v }
  | .fastI x => { l with fastI := l.fastI.set x v }
  | .preI x => { l with preI := l.preI.set x v }
  | .preV => { l with preV := v }
  | .termI x => { l with termI := l.termI.set x v }
  | .rechargeDrop => { l with rechargeDrop := v }
  | .preTimer => { l with preTimer := v }
  | .fastTimer => { l with fastTimer := v }
  | .cutoffV => { l with cutoffV := v }
  | .hardDisI x => { l with hardDisI := l.hardDisI.set x v }
  | .hardCount => { l with hardCount := v }
  | .disRated x => { l with disRated := l.disRated.set x v }
  | .degradedI => { l with degradedI := v }
  | .ceil p => { l with ceil := l.ceil.set p v }
  | .defaultI => { l with defaultI := v }
  | .cap x => { l with cap := l.cap.set x v }
  | .socKnee => { l with socKnee := v }
  | .chargeEn x => { l with chargeEn := l.chargeEn.set x v }
  | .etaIn => { l with etaIn := v }
  | .margin => { l with margin := v }
  | .admitHyst => { l with admitHyst := v }
  | .hingeROpen => { l with hingeROpen := v }
  | .hingeRFolded => { l with hingeRFolded := v }
  | .balGain => { l with balGain := v }
  | .balDeadband => { l with balDeadband := v }
  | .eqEnable => { l with eqEnable := v }
  | .eqPower => { l with eqPower := v }
  | .eqStart => { l with eqStart := v }
  | .eqStop => { l with eqStop := v }
  | .eqLoadMax => { l with eqLoadMax := v }
  | .etaEq => { l with etaEq := v }
  | .odMargin => { l with odMargin := v }
  | .odCount => { l with odCount := v }
  | .droopMargin => { l with droopMargin := v }
  | .cablePreferred => { l with cablePreferred := v }
  | .silenceLimit => { l with silenceLimit := v }

/-- The range of a single item (10.6); EQ_STOP's upper end follows EQ_START. -/
def itemRange (l : Limits) : Item → Nat × Nat
  | .chgTarget _ => (4200, 4480)
  | .fastI _ => (500, 6000)
  | .preI _ => (50, 500)
  | .preV => (2800, 3300)
  | .termI _ => (50, 500)
  | .rechargeDrop => (50, 300)
  | .preTimer => (5, 120)
  | .fastTimer => (60, 600)
  | .cutoffV => (2800, 3400)
  | .hardDisI _ => (1000, 8000)
  | .hardCount => (1, 15)
  | .disRated _ => (500, 6000)
  | .degradedI => (100, 2000)
  | .ceil .cable => (5000, 45000)
  | .ceil .coil => (2500, 20000)
  | .defaultI => (100, 3000)
  | .cap _ => (500, 8000)
  | .socKnee => (0, 300)
  | .chargeEn _ => (0, 1)
  | .etaIn => (200, 256)
  | .margin => (0, 5000)
  | .admitHyst => (0, 2000)
  | .hingeROpen => (0, 200)
  | .hingeRFolded => (0, 200)
  | .balGain => (0, 15)
  | .balDeadband => (0, 100)
  | .eqEnable => (0, 1)
  | .eqPower => (250, 3000)
  | .eqStart => (20, 300)
  | .eqStop => (0, l.eqStart - 10)
  | .eqLoadMax => (0, 10000)
  | .etaEq => (160, 256)
  | .odMargin => (0, 5000)
  | .odCount => (1, 15)
  | .droopMargin => (100, 1000)
  | .cablePreferred => (0, 1)
  | .silenceLimit => (0, 60)

/-- Whether a single item is lockable (10.6). -/
def itemLockable : Item → Bool
  | .chgTarget _ => true
  | .fastI _ => true
  | .preI _ => true
  | .preV => true
  | .termI _ => true
  | .rechargeDrop => true
  | .preTimer => true
  | .fastTimer => true
  | .cutoffV => true
  | .hardDisI _ => true
  | .hardCount => true
  | .disRated _ => true
  | .degradedI => true
  | .ceil _ => true
  | .defaultI => true
  | .cap _ => false
  | .socKnee => false
  | .chargeEn _ => false
  | .etaIn => false
  | .margin => false
  | .admitHyst => false
  | .hingeROpen => false
  | .hingeRFolded => false
  | .balGain => false
  | .balDeadband => false
  | .eqEnable => false
  | .eqPower => false
  | .eqStart => false
  | .eqStop => false
  | .eqLoadMax => false
  | .etaEq => false
  | .odMargin => false
  | .odCount => false
  | .droopMargin => false
  | .cablePreferred => false
  | .silenceLimit => false

/-- Whether what an address names is lockable (10.6). -/
def LimitAddr.lockable : LimitAddr → Bool
  | .item i => itemLockable i
  | .edge _ => true
  | .derate _ _ => true
  | .profile _ => true
  | .rest _ => false

/-- The entry of a derating row in a column. -/
def DerateRow.get (r : DerateRow) : DerateCol → Nat
  | .charge => r.charge
  | .reduction => r.reduction
  | .discharge => r.discharge

/-- Replace the entry of a derating row in a column. -/
def DerateRow.put (r : DerateRow) (c : DerateCol) (v : Nat) : DerateRow :=
  match c with
  | .charge => { r with charge := v }
  | .reduction => { r with reduction := v }
  | .discharge => { r with discharge := v }

/-- Replace an entry of the derating table. -/
def Derate.put (d : Derate) (z : Zone) (c : DerateCol) (v : Nat) : Derate :=
  match z with
  | .cold => { d with cold := d.cold.put c v }
  | .cool => { d with cool := d.cool.put c v }
  | .normal => { d with normal := d.normal.put c v }
  | .warm => { d with warm := d.warm.put c v }
  | .hot => { d with hot := d.hot.put c v }

/-- The range of a derating column (R85). -/
def colRange : DerateCol → Nat × Nat
  | .charge => (0, 256)
  | .reduction => (0, 300)
  | .discharge => (0, 256)

/-- The span the neighbour clamp allows an entry of ZONE_EDGES (R81). -/
def edgeRange (l : Limits) : Fin 4 → Int × Int
  | 0 => (-30, l.zoneEdges[1] - 5)
  | 1 => (l.zoneEdges[0] + 5, l.zoneEdges[2] - 5)
  | 2 => (l.zoneEdges[1] + 5, l.zoneEdges[3] - 5)
  | 3 => (l.zoneEdges[2] + 5, 70)

/-- The span the neighbour clamp allows a point of REST_TABLE (R79). -/
def restRange (l : Limits) (k : Fin 11) : Nat × Nat :=
  (if h : k.val = 0 then 2500 else l.rest[k.val - 1] + 1, if h : k.val = 10 then 4600 else l.rest[k.val + 1] - 1)

/-- An acceptance profile entry as a write stores it (R133): voltages clamped to 4,000..16,000 and rounded down to a
multiple of 20, vhi raised to vlo, imax 0 or 100..5,000 rounded down to a multiple of 10. -/
def clampProfile (e : ProfileEntry) : ProfileEntry :=
  let lo := clampNat 4000 16000 e.vlo / 20 * 20
  let hi := clampNat 4000 16000 e.vhi / 20 * 20
  { vlo := lo, vhi := max lo hi, imax := if e.imax = 0 then 0 else clampNat 100 5000 e.imax / 10 * 10 }

/-- What a SET_LIMIT carries: a value, or an acceptance profile entry (R172). -/
inductive LimitValue where
  | value (v : Int)
  | entry (e : ProfileEntry)
  deriving DecidableEq, Repr, Inhabited

/-- Clamp a value to a range of natural figures. -/
def clampTo (r : Nat × Nat) (v : Int) : Nat := (clampInt r.1 r.2 v).toNat

/-- A write of EQ_START that leaves the stored EQ_STOP above the new EQ_START − 10 lowers it to that (R160). -/
def lowerEqStop (l : Limits) : Limits := { l with eqStop := min l.eqStop (l.eqStart - 10) }

/-- The limit set after a write, and whether the clamps altered the value (R160, steps 3 and 4). -/
def writeLimit (l : Limits) (a : LimitAddr) (w : LimitValue) : Limits × Bool :=
  match a, w with
  | .item i, .value v =>
    let c := clampTo (itemRange l i) v
    let l' := l.put i c
    (if i = .eqStart then lowerEqStop l' else l', (c : Int) != v)
  | .edge k, .value v =>
    let r := edgeRange l k
    let c := clampInt r.1 r.2 v
    ({ l with zoneEdges := l.zoneEdges.set k c }, c != v)
  | .derate z c, .value v =>
    let d := clampTo (colRange c) v
    ({ l with derate := l.derate.put z c d }, (d : Int) != v)
  | .profile k, .entry e =>
    let c := clampProfile e
    ({ l with profile := l.profile.set k c }, c != e)
  | .rest k, .value v =>
    let c := clampTo (restRange l k) v
    ({ l with rest := l.rest.set k c }, (c : Int) != v)
  | .profile _, .value _ => (l, false)
  | .item _, .entry _ => (l, false)
  | .edge _, .entry _ => (l, false)
  | .derate _ _, .entry _ => (l, false)
  | .rest _, .entry _ => (l, false)

/-- The six bytes of an acceptance profile entry in a GET_LIMIT answer (R172). -/
def profileBytes (e : ProfileEntry) : List Byte := bytesOf 2 e.vlo ++ bytesOf 2 e.vhi ++ bytesOf 2 e.imax

/-- Value, low end, high end and default of an item, three bytes each, signed (R172). -/
def limitBytes (v lo hi d : Int) : List Byte :=
  signedBytesOf 3 v ++ signedBytesOf 3 lo ++ signedBytesOf 3 hi ++ signedBytesOf 3 d

/-- The GET_LIMIT payload before its flags byte: the stored value, the range in force for the entry, and the default
(R163, R172). The imax of a profile entry is reported with the ends 0 and 5,000 (DEDUCED, log 8). -/
def limitReport (l : Limits) : LimitAddr → List Byte
  | .item i => limitBytes (l.get i) (itemRange l i).1 (itemRange l i).2 (Limits.default.get i)
  | .edge k => limitBytes l.zoneEdges[k] (edgeRange l k).1 (edgeRange l k).2 Limits.default.zoneEdges[k]
  | .derate z c =>
    limitBytes ((l.derate.row z).get c) (colRange c).1 (colRange c).2 ((Limits.default.derate.row z).get c)
  | .profile k =>
    profileBytes l.profile[k] ++ profileBytes Limits.default.profile[k] ++ bytesOf 2 4000 ++ bytesOf 2 16000 ++
      bytesOf 2 0 ++ bytesOf 2 5000
  | .rest k => limitBytes l.rest[k] (restRange l k).1 (restRange l k).2 Limits.default.rest[k]

end Sys2Proof.Machine
end

