-- ==== Sys2Proof/Machine/Operands.lean ====
section
/-! DEFINITION. The operand forms of the host commands: the argument bytes of a frame read by the layouts of R172, with
`none` where the argument list is invalid and the command is refused BAD_ARG (R170, R172). -/

namespace Sys2Proof.Machine

/-- A cell byte: 00h for A, 01h for B (R172). -/
def cellOfByte (b : Byte) : Option Cell :=
  match b.toNat with
  | 0 => some .A
  | 1 => some .B
  | _ => none

/-- A port byte: 00h for cable, 01h for coil (R172). -/
def portOfByte (b : Byte) : Option PortId :=
  match b.toNat with
  | 0 => some .cable
  | 1 => some .coil
  | _ => none

/-- An on/off byte: 01h on, 00h off (R172). -/
def onOffOfByte (b : Byte) : Option Bool :=
  match b.toNat with
  | 0 => some false
  | 1 => some true
  | _ => none

/-- A kind byte: 00h STEADY, 01h BURST (R172). -/
def kindOfByte (b : Byte) : Option Kind :=
  match b.toNat with
  | 0 => some .steady
  | 1 => some .burst
  | _ => none

/-- The argument list of a command that names a cell alone (READ_CELL, CLEAR_FAULT). -/
def cellArg : List Byte → Option Cell
  | [b] => cellOfByte b
  | _ => none

/-- The argument list of a command that names a port alone (READ_INPUT, APPLIED). -/
def portArg : List Byte → Option PortId
  | [b] => portOfByte b
  | _ => none

/-- The argument list of ISOLATE_CELL (R112). -/
def cellOnOff : List Byte → Option (Cell × Bool)
  | [b, o] =>
    match cellOfByte b, onOffOfByte o with
    | some x, some on => some (x, on)
    | _, _ => none
  | _ => none

/-- The argument list of ISOLATE (R143). -/
def portOnOff : List Byte → Option (PortId × Bool)
  | [b, o] =>
    match portOfByte b, onOffOfByte o with
    | some p, some on => some (p, on)
    | _, _ => none
  | _ => none

/-- What RESERVE asks for (R6). -/
structure ReserveArgs where
  owner : Nat
  prio : Nat
  kind : Kind
  draw : Nat
  life : Nat
  burst : Nat
  wait : Nat
  deriving DecidableEq, Repr, Inhabited

/-- The fields of a RESERVE are within the ranges R6 allows. -/
def ReserveArgs.ok (a : ReserveArgs) : Bool :=
  a.owner ≤ 14 && a.prio ≤ 7 && 1 ≤ a.draw && a.draw ≤ 20000 && a.life ≤ 3600 && a.wait ≤ 60000 &&
    (match a.kind with
      | .burst => 1 ≤ a.burst && a.burst ≤ 2000
      | .steady => a.burst == 0)

/-- The argument list of RESERVE (R6, R172): owner, priority, kind, draw (2), lifetime (2), burst duration (2), wait
limit (2). -/
def reserveArgs : List Byte → Option ReserveArgs
  | [o, p, k, d1, d0, l1, l0, b1, b0, w1, w0] =>
    match kindOfByte k with
    | none => none
    | some kind =>
      let a : ReserveArgs :=
        ⟨o.toNat, p.toNat, kind, unsignedOf [d1, d0], unsignedOf [l1, l0], unsignedOf [b1, b0], unsignedOf [w1, w0]⟩
      if a.ok then some a else none
  | _ => none

/-- The acting owner and handle that ADJUST, RENEW and RELEASE carry (R5). -/
structure HandleArgs where
  owner : Nat
  slot : Nat
  gen : Byte
  deriving DecidableEq, Repr, Inhabited

/-- The argument list of RENEW and RELEASE (R5, R172): owner and handle. An acting owner above 15 is refused as 15 is
(DEDUCED, log 9). -/
def handleArgs : List Byte → Option HandleArgs
  | [o, sl, g] => if o.toNat ≤ 14 then some ⟨o.toNat, sl.toNat, g⟩ else none
  | _ => none

/-- The argument list of ADJUST (R5, R172): owner, handle and new draw. -/
def adjustArgs : List Byte → Option (HandleArgs × Nat)
  | [o, sl, g, d1, d0] =>
    let d := unsignedOf [d1, d0]
    if o.toNat ≤ 14 ∧ 1 ≤ d ∧ d ≤ 20000 then some (⟨o.toNat, sl.toNat, g⟩, d) else none
  | _ => none

/-- One offer entry, a 40-bit field of five bytes, none for an unknown type (R172). Bits 2..0 are not read (DESIGN CHOICE,
log 7). -/
def offerOf (n : Nat) : Option Offer :=
  let v := n / 2 ^ 27 % 2 ^ 11 * 10
  let vhi := n / 2 ^ 16 % 2 ^ 11 * 10
  let imax := n / 2 ^ 3 % 2 ^ 13
  match n / 2 ^ 38 % 4 with
  | 0 => some (.fixed v imax)
  | 1 => some (.range v vhi imax)
  | _ => none

/-- The offer entries of an argument list after its port byte, none where the length does not match or a type is unknown
(R134). -/
def offerList : List Byte → Option (List Offer)
  | [] => some []
  | b4 :: b3 :: b2 :: b1 :: b0 :: rest =>
    match offerOf (unsignedOf [b4, b3, b2, b1, b0]), offerList rest with
    | some o, some os => some (o :: os)
    | _, _ => none
  | _ => none

/-- The argument list of OFFERS (R134): a port and at least one entry. -/
def offersArgs : List Byte → Option (PortId × List Offer)
  | p :: b :: rest =>
    match portOfByte p, offerList (b :: rest) with
    | some q, some os => some (q, os)
    | _, _ => none
  | _ => none

/-- A voltage an offer may carry (R134). -/
def offerVoltOk (v : Nat) : Bool := v % 20 == 0 && 4000 ≤ v && v ≤ 16000

/-- A current an offer may carry (R134). -/
def offerCurOk (i : Nat) : Bool := i % 10 == 0 && 100 ≤ i && i ≤ 5000

/-- Whether an entry is valid (R134). -/
def Offer.valid : Offer → Bool
  | .fixed v i => offerVoltOk v && offerCurOk i
  | .range lo hi i => offerVoltOk lo && offerVoltOk hi && offerCurOk i && lo ≤ hi

/-- The argument list of SET_LIMIT (R160, R172). -/
def setLimitArgs : List Byte → Option (LimitAddr × LimitValue)
  | [id, idx, v2, v1, v0] =>
    match limitAddr id.toNat idx.toNat with
    | some (.profile _) => none
    | some a => some (a, .value (signedOf 24 (unsignedOf [v2, v1, v0])))
    | none => none
  | [id, idx, l1, l0, h1, h0, i1, i0] =>
    match limitAddr id.toNat idx.toNat with
    | some (.profile k) =>
      some (.profile k, .entry ⟨unsignedOf [l1, l0], unsignedOf [h1, h0], unsignedOf [i1, i0]⟩)
    | _ => none
  | _ => none

/-- The argument list of GET_LIMIT (R163, R172). -/
def getLimitArgs : List Byte → Option LimitAddr
  | [id, idx] => limitAddr id.toNat idx.toNat
  | _ => none

/-- The argument list of SET_MASKS (R167, R172): the 26 mask bits, the master enable and the record-attention enable.
Bits 31..26 of the masks and 7..2 of the enables are not read (DESIGN CHOICE, log 7). -/
def setMasksArgs : List Byte → Option (BitVec 26 × Bool × Bool)
  | [m3, m2, m1, m0, e] => some (BitVec.ofNat 26 (unsignedOf [m3, m2, m1, m0]), e.getLsbD 1, e.getLsbD 0)
  | _ => none

end Sys2Proof.Machine
end

