-- ==== Sys2Proof/Machine/BranchLoad.lean ====
section
/-! DEFINITION. Branch protection and the system load monitor (chapter 6). -/

namespace Sys2Proof.Machine

/-! ### Branch state changes (R105, R106) -/

/-- Replace the items and runs of a cell's branch. -/
def putBranch (x : Cell) (b : Branch) (s : State) : State := { s with br := s.br.set x b }

/-- A command in a direction the branch state forbids is set to 0 at once (R106, step 2). -/
def zeroForbidden (x : Cell) (s : State) : State :=
  if (branchState s x).forbids (s.budget.cmd.get x) then setCmd x 0 s else s

/-- Branch protection changes its items and works the branch state again; a change of the worked state zeroes a forbidden
command and requests a pass (R105, R106). -/
def moveBranch (x : Cell) (b : Branch) (s : State) : State :=
  let s' := putBranch x b s
  if b.state = branchState s x then s' else requestPass (zeroForbidden x s')

/-! ### Protection tests of an accepted sample (R107 to R111) -/

/-- The discharge overcurrent run reaches HARD_COUNT (R108). While the cause is latched the run is set to 0 all the same (DEDUCED,
log 22). -/
def tripDischarge (x : Cell) (s : State) : State :=
  let b := s.br.get x
  if b.overcurrent then putBranch x { b with disRun := 0 } s
  else latch (.branchFault x) (moveBranch x { b with overcurrent := true, disRun := 0 } s)

/-- The charge overcurrent run reaches HARD_COUNT (R109), as the discharge overcurrent run does (DEDUCED, log 22). -/
def tripCharge (x : Cell) (s : State) : State :=
  let b := s.br.get x
  if b.chgOvercurrent then putBranch x { b with chgRun := 0 } s
  else latch (.branchFault x) (moveBranch x { b with chgOvercurrent := true, chgRun := 0 } s)

/-- Whether a reading counts as a discharge current above HARD_DIS_I_x (R108): the discharge current is the magnitude of a negative
current, and a reading saturated at −8,000 mA is above every item. A stored −8,000 is taken as saturated (DEDUCED, log 26). -/
def dischargeOver (x : Cell) (i : Int) (s : State) : Bool := s.lim.hardDisI.get x < (-i).toNat || i ≤ -8000

/-- The discharge overcurrent test (R108). -/
def dischargeTest (x : Cell) (i : Int) (s : State) : State :=
  let n := if dischargeOver x i s then (s.br.get x).disRun + 1 else 0
  if 0 < n ∧ s.lim.hardCount ≤ n then tripDischarge x s else putBranch x { s.br.get x with disRun := n } s

/-- The charge overcurrent test (R109): above the commanded charge current plus 500 mA. -/
def chargeTest (x : Cell) (i : Int) (s : State) : State :=
  let n := if (chargeCommand s x : Int) + 500 < i then (s.br.get x).chgRun + 1 else 0
  if 0 < n ∧ s.lim.hardCount ≤ n then tripCharge x s else putBranch x { s.br.get x with chgRun := n } s

/-- The overtemperature test (R110): set standing at 65 °C or more, ended at 60 °C or less. -/
def overtempTest (x : Cell) (t : Int) (s : State) : State :=
  let b := s.br.get x
  if 65 ≤ t ∧ b.overtemp = false then latch (.branchFault x) (moveBranch x { b with overtemp := true } s)
  else if t ≤ 60 ∧ b.overtemp = true then moveBranch x { b with overtemp := false } s
  else s

/-- The cutoff run reaches 3 (R111): cutoff stands, the count is anchored to 0 and CUTOFF_x is latched. -/
def tripCutoff (x : Cell) (s : State) : State :=
  latch (.cutoff x) (anchorCount x 0 (moveBranch x { s.br.get x with cutoff := true, cutRun := 0 } s))

/-- The cutoff test (R111): counted while the branch is CLOSED. -/
def cutoffTest (x : Cell) (v : Nat) (s : State) : State :=
  let n := if branchState s x = .closed ∧ v < s.lim.cutoffV then (s.br.get x).cutRun + 1 else 0
  if 3 ≤ n then tripCutoff x s else putBranch x { s.br.get x with cutRun := n } s

/-- The cutoff release test (R111). -/
def cutoffRelease (x : Cell) (v : Nat) (s : State) : State :=
  let b := s.br.get x
  if b.cutoff = true ∧ s.lim.cutoffV + 200 ≤ v then moveBranch x { b with cutoff := false } s else s

/-- Branch protection tests an accepted sample of a cell, in the order of the rules (R107). -/
def branchTests (x : Cell) (v : Nat) (i t : Int) (s : State) : State :=
  cutoffRelease x v (cutoffTest x v (overtempTest x t (chargeTest x i (dischargeTest x i s))))

/-- Branch protection takes a sample slot: a held slot, and a cell with no record, are not tested (R107). -/
def branchSlot (x : Cell) (accepted : Bool) (s : State) : State :=
  match readingOf s x with
  | none => s
  | some r => if accepted then branchTests x r.v r.i r.t s else s

/-- The discharge overcurrent run of a cell reaches HARD_COUNT, once the cell has samples (R107, R108). -/
def dischargeRun (x : Cell) (s : State) : State := if (readingOf s x).isSome then tripDischarge x s else s

/-- The charge overcurrent run of a cell reaches HARD_COUNT, once the cell has samples (R107, R109). -/
def chargeRun (x : Cell) (s : State) : State := if (readingOf s x).isSome then tripCharge x s else s

/-- The cutoff run of a cell reaches 3: it is counted only while the branch is CLOSED (R111). -/
def cutoffRun (x : Cell) (s : State) : State :=
  if (readingOf s x).isSome ∧ branchState s x = .closed then tripCutoff x s else s

/-! ### Commands and reset (R112 to R114) -/

/-- ISOLATE_CELL (R112). -/
def isolateCellCmd (args : List Byte) (s : State) : Result :=
  match cellOnOff args with
  | none => refuse s .badArg
  | some (x, on) => doneWith (moveBranch x { s.br.get x with isolated := on } s)

/-- Whether a CLEAR_FAULT finds something to clear: a latched cause, or the phase FAULT (R113). -/
def faultToClear (s : State) (x : Cell) : Bool :=
  (s.br.get x).overcurrent || (s.br.get x).chgOvercurrent || (s.chg.get x).phase.isFault

/-- The latched causes of a cell are dropped, both overcurrent runs set to 0 and the branch state worked again (R113). -/
def dropCauses (x : Cell) (s : State) : State :=
  moveBranch x { s.br.get x with overcurrent := false, chgOvercurrent := false, disRun := 0, chgRun := 0 } s

/-- CLEAR_FAULT (R113). -/
def clearFaultCmd (args : List Byte) (s : State) : Result :=
  match cellArg args with
  | none => refuse s .badArg
  | some x => doneWith (if faultToClear s x then dropCauses x (clearChgFault x s) else s)

/-- The control reset step of one branch (R114). -/
def resetBranch (x : Cell) (s : State) : State :=
  moveBranch x
    { s.br.get x with overcurrent := false, chgOvercurrent := false, disRun := 0, chgRun := 0, cutRun := 0 } s

/-! ### System load monitor (R115 to R117) -/

/-- Replace the system load monitor's state. -/
def putLoad (l : Load) (s : State) : State := { s with load := l }

/-- Pm − L, or 0 when that is negative, clamped to 65,535 (R115, R116). -/
def unaccounted (s : State) : Nat := min Config.unaccountedMax (s.load.pm - grantedSum s)

/-- The on-run reaches OD_COUNT: overdraw turns on (R115). -/
def turnOverdrawOn (s : State) : State :=
  requestPass (count .overdraws (latch .overdraw
    (putLoad { s.load with on := true, U := unaccounted s, onRun := 0, offRun := 0 } s)))

/-- The off-run reaches OD_COUNT: overdraw turns off (R116). -/
def turnOverdrawOff (s : State) : State :=
  requestPass (putLoad { s.load with on := false, U := 0, onRun := 0, offRun := 0 } s)

/-- A sample while OFF (R115). -/
def loadOffTest (s : State) : State :=
  let n := if grantedSum s + s.lim.odMargin < s.load.pm then s.load.onRun + 1 else 0
  if 0 < n ∧ s.lim.odCount ≤ n then turnOverdrawOn s else putLoad { s.load with onRun := n } s

/-- A sample while ON: U follows Pm − L, and the off-run counts samples at or below L (R116). A change of U requests no pass, as R116
says and R44 does not (DESIGN CHOICE, log 29). -/
def loadOnTest (s : State) : State :=
  let n := if s.load.pm ≤ grantedSum s then s.load.offRun + 1 else 0
  if 0 < n ∧ s.lim.odCount ≤ n then turnOverdrawOff s
  else putLoad { s.load with U := unaccounted s, offRun := n } s

/-- The system load monitor samples PSYS (R115, R116); the next slot comes 10 ms on. -/
def loadSample (p : Int) (s : State) : State :=
  let s1 := putLoad { s.load with pm := (clampInt 0 100000 p).toNat }
    { s with slots := { s.slots with load := Config.slotPeriod } }
  if s1.load.on then loadOnTest s1 else loadOffTest s1

/-- The on-run reaches OD_COUNT, at the latest sample: counted while OFF (R115; DEDUCED, log 6). -/
def overdrawOnRun (s : State) : State := if s.load.on then s else turnOverdrawOn s

/-- The off-run reaches OD_COUNT: counted while ON (R116). -/
def overdrawOffRun (s : State) : State := if s.load.on then turnOverdrawOff s else s

/-- The control reset step of the monitor (R117). -/
def resetLoad (s : State) : State := putLoad { s.load with on := false, U := 0, onRun := 0, offRun := 0 } s

end Sys2Proof.Machine
end

