-- ==== Sys2Proof/Machine/Cells.lean ====
section
/-! DEFINITION. The cell monitors: samples, charge counts, temperature zones, the first count, READ_CELL and the rescale of
a capacity (chapter 4). -/

namespace Sys2Proof.Machine

/-- Replace the monitor of a cell. -/
def putMonitor (x : Cell) (m : Monitor) (s : State) : State := { s with mon := s.mon.set x m }

/-- Replace the reading of a cell. -/
def putReading (x : Cell) (r : Reading) (s : State) : State := putMonitor x { s.mon.get x with rd := some r } s

/-! ### The first count (R78) -/

/-- The state of charge of a rest voltage: with j the point for which V_j ≤ V < V_(j+1), interpolated between them (R78).
`j` is the point of the first voltage of the list. -/
def restSoc (v : Nat) (j : Nat) : List Nat → Nat
  | [] => 0
  | [_] => 1000
  | a :: b :: rest =>
    if v < a then 0
    else if v < b then 100 * j + 100 * (v - a) / (b - a)
    else restSoc v (j + 1) (b :: rest)

/-- The first charge count of a cell, from its first accepted voltage (R78). -/
def firstCount (l : Limits) (x : Cell) (v : Nat) : Nat := restSoc v 0 l.rest.toList * l.cap.get x * 3600

/-! ### Counting (R74, R75) -/

/-- The count after a slot in which a current passed, clamped to 0..CAP × 3,600,000 (R74). -/
def countAfter (full count : Nat) (i : Int) : Nat := (clampInt 0 full ((count : Int) + i * 10)).toNat

/-! ### Zones (R81 to R83) -/

/-- The plain zone of a temperature (R81). -/
def plainZone (l : Limits) (t : Int) : Zone :=
  if t < l.zoneEdges[0] then .cold
  else if t < l.zoneEdges[1] then .cool
  else if t < l.zoneEdges[2] then .normal
  else if t < l.zoneEdges[3] then .warm
  else .hot

/-- The return toward NORMAL from a zone, across each edge the temperature has passed by at least 2 °C (R82). -/
def zoneReturn (l : Limits) (t : Int) : Zone → Zone
  | .cold => if l.zoneEdges[0] + 2 ≤ t then (if l.zoneEdges[1] + 2 ≤ t then .normal else .cool) else .cold
  | .cool => if l.zoneEdges[1] + 2 ≤ t then .normal else .cool
  | .normal => .normal
  | .warm => if t ≤ l.zoneEdges[2] - 2 then .normal else .warm
  | .hot => if t ≤ l.zoneEdges[3] - 2 then (if t ≤ l.zoneEdges[2] - 2 then .normal else .warm) else .hot

/-- Whether a plain zone lies nearer to NORMAL than the present zone on the same side, NORMAL included (R81, R82). -/
def nearerNormal : Zone → Zone → Bool
  | .cold, .cool => true
  | .cold, .normal => true
  | .cool, .normal => true
  | .hot, .warm => true
  | .hot, .normal => true
  | .warm, .normal => true
  | _, _ => false

/-- The zone after an accepted sample of temperature `t` in a present zone (R81, R82). -/
def zoneAfter (l : Limits) (t : Int) (z : Zone) : Zone :=
  if nearerNormal z (plainZone l t) then zoneReturn l t z else plainZone l t

/-- The zone of an accepted sample: HOT while the far over-temperature flag is set, the plain zone where there is no
present zone, otherwise by R81 and R82 (R83). -/
def sampleZone (l : Limits) (t : Int) (farOt : Bool) (z : Option Zone) : Zone :=
  if farOt then .hot
  else
    match z with
    | none => plainZone l t
    | some z => zoneAfter l t z

/-- A change of zone requests a pass; a change from one zone to another latches ZONE_CHANGE_x (R84). -/
def noteZone (x : Cell) (before : Option Zone) (after : Zone) (s : State) : State :=
  match before with
  | none => requestPass s
  | some z => if z = after then s else requestPass (latch (.zoneChange x) s)

/-! ### Slots handed on (R71, R72) -/

/-- Charge control and branch protection take a cell's slot, in the order the event carries (R90). -/
def handOn (x : Cell) (accepted : Bool) (order : SlotOrder) (s : State) : State :=
  match order with
  | .chargeFirst => branchSlot x accepted (chargeSlot x accepted s)
  | .branchFirst => chargeSlot x accepted (branchSlot x accepted s)

/-- A cell monitor stores an accepted sample: readings, count and zone (R71, steps 1 to 3). `counted` is the current counted in
the slot; at the first sample the count is set from the rest-voltage table instead (R78). -/
def storeSample (x : Cell) (v : Nat) (i t : Int) (farOt : Bool) (counted : Int) (s : State) : State :=
  let before := (readingOf s x).map fun r => r.zone
  let z := sampleZone s.lim t farOt before
  let n :=
    match readingOf s x with
    | none => firstCount s.lim x v
    | some r => countAfter (fullCount s.lim x) r.count counted
  noteZone x before z (putReading x ⟨v, i, t, farOt, z, n⟩ s)

/-- Cell monitor A takes its sample (R71, R74): readings beyond a measuring range saturate; the next slot comes 10 ms on. -/
def cellASample (v i t : Int) (order : SlotOrder) (s : State) : State :=
  let v' := (clampInt 0 5000 v).toNat
  let i' := clampInt (-8000) 8000 i
  let t' := clampInt (-40) 125 t
  handOn .A true order
    (storeSample .A v' i' t' false i' { s with slots := { s.slots with cellA := Config.slotPeriod } })

/-- Whether cell B's slots are counted by its command: STALE or DEGRADED (R75). -/
def DataState.byCommand : DataState → Bool
  | .stale => true
  | .degraded => true
  | .awaiting => false
  | .live => false
  | .suspect => false

/-- The estimated flag after a slot of cell B: set at a slot counted by a command, cleared at one that is LIVE (R75). -/
def noteEstimated (failed : Bool) (s : State) : State :=
  let d := s.hinge.dataState
  let e := if d.byCommand then true else if d = .live then false else (s.mon.get .B).estimated
  putMonitor .B { s.mon.get .B with estimated := e, lastFailed := failed } s

/-- Cell monitor B takes a GOOD slot with its accepted sample (R72, R75). -/
def cellBGood (f : FarSample) (order : SlotOrder) (s : State) : State :=
  let i := clampInt (-8000) 8000 f.i
  let counted := if s.hinge.dataState.byCommand then s.budget.cmd.get .B else i
  handOn .B true order (noteEstimated false (storeSample .B f.v i f.t f.farOt counted s))

/-- Cell monitor B takes a slot with a failed outcome: held values, counted by the held current or by the command
(R72, R75). A slot while cell B has no record changes nothing (R126). -/
def cellBHeld (s : State) : State :=
  match readingOf s .B with
  | none => s
  | some r =>
    let counted := if s.hinge.dataState.byCommand then s.budget.cmd.get .B else r.i
    handOn .B false .chargeFirst
      (noteEstimated true (putReading .B { r with count := countAfter (fullCount s.lim .B) r.count counted } s))

/-! ### Capacity (R80) -/

/-- A cell's count rescaled from an old capacity to the one in force (R80). -/
def rescale (x : Cell) (old : Nat) (s : State) : State :=
  match readingOf s x with
  | none => s
  | some r => putReading x { r with count := r.count * s.lim.cap.get x / old } s

/-! ### READ_CELL (R87, R174) -/

/-- The code of a cell (R172). -/
def cellCode : Cell → Byte
  | .A => 0
  | .B => 1

/-- The code of a data state (R174). -/
def DataState.code : DataState → Byte
  | .awaiting => 0
  | .live => 1
  | .suspect => 2
  | .stale => 3
  | .degraded => 4

/-- The code of a zone (R174). -/
def Zone.code : Zone → Byte
  | .cold => 0
  | .cool => 1
  | .normal => 2
  | .warm => 3
  | .hot => 4

/-- The code of a branch state (R174). -/
def BranchState.code : BranchState → Nat
  | .closed => 0
  | .chargeOnly => 1
  | .openFault => 2
  | .openIsolated => 3

/-- The branch byte: the state and every standing cause, whatever state hides them (R105, R174). Bits 5..4, which the layout does not
name, are sent as 0 (DESIGN CHOICE, log 28). -/
def branchByte (b : Branch) : Byte :=
  BitVec.ofNat 8 (b.state.code * 64 + b.overcurrent.toNat * 8 + b.chgOvercurrent.toNat * 4 + b.overtemp.toNat * 2 +
    b.cutoff.toNat)

/-- The phase byte, with the cause in FAULT (R174). -/
def phaseByte : Phase → Byte
  | .off => 0x00
  | .precharge => 0x10
  | .fast => 0x20
  | .taper => 0x30
  | .full => 0x40
  | .hold => 0x50
  | .fault .overvoltage => 0x61
  | .fault .prechargeTimeout => 0x62
  | .fault .chargeTimeout => 0x63

/-- Byte 2 of the cell answer: sample present, held values, estimated, far over-temperature (R174). Bits 3..0, which the layout does
not name, are sent as 0 (DESIGN CHOICE, log 28). -/
def cellFlags (m : Monitor) : Byte :=
  BitVec.ofNat 8 (m.rd.isSome.toNat * 128 + (m.rd.isSome && m.lastFailed).toNat * 64 + m.estimated.toNat * 32 +
    (m.rd.any fun r => r.farOt).toNat * 16)

/-- Bytes 4 to 16 of the cell answer, all 0 before the first accepted sample (R174). -/
def readingBytes (l : Limits) (x : Cell) : Option Reading → List Byte
  | none => List.replicate 13 0
  | some r =>
    bytesOf 2 r.v ++ signedBytesOf 2 r.i ++ signedBytesOf 1 r.t ++ [r.zone.code] ++ bytesOf 5 r.count ++
      bytesOf 2 (socOf l x r.count)

/-- The 26-byte cell answer (R174). -/
def cellBytes (s : State) (x : Cell) : List Byte :=
  [cellCode x, cellFlags (s.mon.get x), (dataStateOf s x).code] ++ readingBytes s.lim x (readingOf s x) ++
    bytesOf 2 (s.lim.cap.get x) ++ bytesOf 2 (disLimit s x) ++ [branchByte (s.br.get x), phaseByte (s.chg.get x).phase] ++
    bytesOf 2 (chgCeiling s x) ++ signedBytesOf 2 (s.budget.cmd.get x)

/-- READ_CELL (R87). -/
def readCellCmd (args : List Byte) (s : State) : Result :=
  match cellArg args with
  | none => refuse s .badArg
  | some x => ⟨s, .done, cellBytes s x⟩

end Sys2Proof.Machine
end

