-- ==== Sys2Proof/Machine/HingeLink.lean ====
section
/-! DEFINITION. The hinge link controller: the exchange, the judging of a SAMPLE, and cell B's data state (chapter 7). -/

namespace Sys2Proof.Machine

/-- Replace the hinge link controller's state. -/
def putHinge (h : Hinge) (s : State) : State := { s with hinge := h }

/-! ### The SAMPLE (R120, R175, R176) -/

/-- The nine bytes of a SAMPLE read whole on the hinge sense line, in the order of its layout (R175). -/
structure SampleMsg where
  timing : Byte
  seq : Byte
  vHi : Byte
  vLo : Byte
  iHi : Byte
  iLo : Byte
  temp : Byte
  flags : Byte
  check : Byte
  deriving DecidableEq, Repr, Inhabited

/-- The SAMPLE of the data bits read on HSL, in the order of its layout; none of a line that does not hold its nine bytes
(R170, R175, R176). -/
def sampleOfLine (line : List Bool) : Option SampleMsg :=
  match lineBytes line with
  | [timing, seq, vHi, vLo, iHi, iLo, temp, flags, check] => some ⟨timing, seq, vHi, vLo, iHi, iLo, temp, flags, check⟩
  | _ => none

/-- The first eight bytes of a SAMPLE, over which its check is worked. -/
def checkedBytes (m : SampleMsg) : List Byte := [m.timing, m.seq, m.vHi, m.vLo, m.iHi, m.iLo, m.temp, m.flags]

/-- The values a SAMPLE carries: most significant byte first, signed values two's complement (R176). -/
def farSampleOf (m : SampleMsg) : FarSample where
  v := unsignedOf [m.vHi, m.vLo]
  i := signedOf 16 (unsignedOf [m.iHi, m.iLo])
  t := signedOf 8 m.temp.toNat
  farOt := m.flags.getLsbD 0

/-- The sequence check: a number must differ from that of the last accepted SAMPLE (R120). -/
def seqOk (last : Option Byte) (seq : Byte) : Bool := last != some seq

/-- The checks of a SAMPLE read whole (R120). -/
def sampleOk (h : Hinge) (m : SampleMsg) : Bool :=
  let f := farSampleOf m
  crc8 (checkedBytes m) == m.check && m.timing == 0x55#8 && seqOk h.lastSeq m.seq &&
    2000 ≤ f.v && f.v ≤ 4700 && -40 ≤ f.t && f.t ≤ 100

/-! ### Data state (R122 to R125) -/

/-- A change of the data state requests a pass (R29). -/
def setDataState (d : DataState) (s : State) : State :=
  requestPassIf (d != s.hinge.dataState) (putHinge { s.hinge with dataState := d } s)

/-- Cell B's positive command is set to 0; a negative one stays (R123, step 2). -/
def zeroChargeB (s : State) : State := if 0 < s.budget.cmd.get .B then setCmd .B 0 s else s

/-- Entry to STALE, steps 1 to 4 of R123. -/
def enterStale (s : State) : State :=
  requestPass (latch .farStale (zeroChargeB
    (putHinge { s.hinge with dataState := .stale, failRun := 3, goodRun := 0, degTimer := some Config.degradedTime } s)))

/-- Return to LIVE from STALE or DEGRADED (R125). -/
def recover (s : State) : State :=
  requestPass (latch .farRecovered
    (putHinge { s.hinge with dataState := .live, failRun := 0, goodRun := 0, degTimer := none } s))

/-- The failure run one on, staying at 3 (7.3). -/
def failRunUp (n : Nat) : Nat := min 3 (n + 1)

/-- A failed exchange moves the runs and the data state (R122, R123, R125). -/
def onFailed (s : State) : State :=
  let n := failRunUp s.hinge.failRun
  match s.hinge.dataState with
  | .awaiting => putHinge { s.hinge with failRun := n, goodRun := 0 } s
  | .live => setDataState .suspect (putHinge { s.hinge with failRun := 1, goodRun := 0 } s)
  | .suspect => if n = 3 then enterStale s else putHinge { s.hinge with failRun := n, goodRun := 0 } s
  | .stale => putHinge { s.hinge with failRun := n, goodRun := 0 } s
  | .degraded => putHinge { s.hinge with failRun := n, goodRun := 0 } s

/-- A GOOD exchange in STALE or DEGRADED advances the good run; at 5 cell B returns to LIVE (R125). -/
def onGoodRecovering (s : State) : State :=
  let n := s.hinge.goodRun + 1
  if 5 ≤ n then recover s else putHinge { s.hinge with failRun := 0, goodRun := n } s

/-- A GOOD exchange moves the runs and the data state (R122, R125). -/
def onGood (s : State) : State :=
  match s.hinge.dataState with
  | .awaiting => setDataState .live (putHinge { s.hinge with failRun := 0 } s)
  | .live => setDataState .live (putHinge { s.hinge with failRun := 0 } s)
  | .suspect => setDataState .live (putHinge { s.hinge with failRun := 0 } s)
  | .stale => onGoodRecovering s
  | .degraded => onGoodRecovering s

/-! ### Ends of an exchange (R121, R126) -/

/-- How an exchange failed. -/
inductive Failure where
  | noReply | badReply | collision
  deriving DecidableEq, Repr, Inhabited

/-- The counter of a failed outcome (R121). -/
def Failure.counter : Failure → CounterId
  | .noReply => .farNoReply
  | .badReply => .farBadReply
  | .collision => .farCollision

/-- An exchange ends with a failed outcome: the data state moves, the outcome is counted, the J262's own break starts, and the slot
is handed to cell monitor B (R121, R126). -/
def failExchange (f : Failure) (s : State) : State :=
  let s1 := onFailed s
  cellBHeld (count f.counter (putHinge { s1.hinge with exch := .ended, brk := some Config.breakTime } s1))

/-- An exchange ends GOOD with its accepted sample (R120, R126). -/
def goodExchange (m : SampleMsg) (order : SlotOrder) (s : State) : State :=
  let f := farSampleOf m
  cellBGood f order
    (onGood (putHinge { s.hinge with exch := .ended, latest := some f, lastSeq := some m.seq } s))

/-! ### Events (R118 to R125) -/

/-- The start of a slot (R118): an exchange that has not ended bars a new one; a low line is a collision; otherwise POLL, the one
byte C3h, is sent (R175).
The J262's own 100 µs break of an earlier slot has ended (DEDUCED, log 18). -/
def hingeSlot (hslLow : Bool) (s : State) : State :=
  let s1 := { s with slots := { s.slots with hinge := Config.slotPeriod } }
  if s.hinge.exch ≠ .ended then s1
  else if hslLow then failExchange .collision s1
  else putHinge { s.hinge with exch := .polling (lineFrame Config.pollCode), brk := none } s1

/-- A released POLL bit reads low (R118). -/
def pollCollision (s : State) : State :=
  match s.hinge.exch with
  | .polling _ => failExchange .collision s
  | .window _ _ => s
  | .ended => s

/-- POLL is sent whole: the reply window starts (R118). -/
def pollComplete (s : State) : State :=
  match s.hinge.exch with
  | .polling _ => putHinge { s.hinge with exch := .window Config.replyWindow false } s
  | .window _ _ => s
  | .ended => s

/-- The reply window has run out before a whole SAMPLE has been read (R119). -/
def replyWindowExpiry (begun : Bool) (s : State) : State :=
  match s.hinge.exch with
  | .window left b => if left = 0 then failExchange (if begun || b then .badReply else .noReply) s else s
  | .polling _ => s
  | .ended => s

/-- A SAMPLE read whole inside the window is judged (R120). -/
def judgeSample (m : SampleMsg) (order : SlotOrder) (s : State) : State :=
  if sampleOk s.hinge m then goodExchange m order s else failExchange .badReply s

/-- The data bits of a reply are read inside the window: nine whole bytes are a SAMPLE, which is judged (R119, R120); a line that
does not hold them has not been read whole and settles nothing. -/
def sampleRead (line : List Bool) (order : SlotOrder) (s : State) : State :=
  match s.hinge.exch, sampleOfLine line with
  | .window _ _, some m => judgeSample m order s
  | .window _ _, none => s
  | .polling _, _ => s
  | .ended, _ => s

/-- A break from the far unit: in the reply window by R121, during the POLL by R118, COLLISION in both. -/
def farBreak (s : State) : State :=
  match s.hinge.exch with
  | .window _ _ => failExchange .collision s
  | .polling _ => failExchange .collision s
  | .ended => s

/-- The J262's break has lasted 100 µs and HSL is released (R121). -/
def breakEnd (s : State) : State := if s.hinge.brk = some 0 then putHinge { s.hinge with brk := none } s else s

/-- Whether a measured rate lies within 220,000..280,000 bit/s: nine bits in `ns` nanoseconds (R119). -/
def rateAccepted (ns : Nat) : Bool := 220000 * ns ≤ 9000000000 && 9000000000 ≤ 280000 * ns

/-- A rise of HSL during the reply (R119, points 2 and 3): a rate outside the range or a low stop bit shorter than 80 µs is
BAD_REPLY, a low of 80 µs or more is a break (R121), and an accepted rate lets the reply go on. -/
def replyRise (c : FramingCause) (s : State) : State :=
  match s.hinge.exch with
  | .window left _ =>
    match c with
    | .rate ns =>
      if rateAccepted ns then putHinge { s.hinge with exch := .window left true } s else failExchange .badReply s
    | .lowStop ns => failExchange (if ns < 80000 then .badReply else .collision) s
  | .polling _ => s
  | .ended => s

/-- The failure run reaches 3 in SUSPECT (R123), the slot handed on as its last step. -/
def failureRun (s : State) : State := if s.hinge.dataState = .suspect then cellBHeld (enterStale s) else s

/-- The good run reaches 5 in STALE or DEGRADED (R125), the slot handed on with the latest accepted sample
(DEDUCED, log 6). -/
def goodRun (order : SlotOrder) (s : State) : State :=
  if s.hinge.dataState.byCommand then
    match s.hinge.latest with
    | some f => cellBGood f order (recover s)
    | none => recover s
  else s

/-- The degraded timer has run out in STALE (R124). -/
def degradedExpiry (s : State) : State :=
  if s.hinge.dataState = .stale ∧ s.hinge.degTimer = some 0 then
    requestPass (latch .farDegraded (putHinge { s.hinge with dataState := .degraded, degTimer := none } s))
  else s

end Sys2Proof.Machine
end

