-- ==== Sys2Proof/Machine/Arbiter.lean ====
section
/-! DEFINITION. The source arbiter (9.1). -/

namespace Sys2Proof.Machine

/-- A port becomes the active port: its Ie becomes min(held current, the ceiling current at Vc), and the input command in
force becomes that Ie (R140, R146, step 3). -/
def activatePort (p : PortId) (s : State) : State :=
  match (s.port.get p).held with
  | none => s
  | some h =>
    let ie := min h.i (ceilCurrent (portCeiling s p) h.v)
    { s with
      port := s.port.set p { s.port.get p with ie := ie }
      budget := { s.budget with inputCmd := some ie } }

/-- The active switch opens: the break timer starts, the input command goes with the input, and charge control is handed the
loss of the input (R146, step 2). -/
def openSwitch (s : State) : State :=
  lossOfInput
    { s with
      arb := { s.arb with brk := some Config.breakBeforeMake }
      budget := { s.budget with inputCmd := none } }

/-- The arbiter closes a port's switch: ACTIVE(that port) (R146). -/
def goActive (p : PortId) (s : State) : State :=
  requestPass (activatePort p { s with arb := { s.arb with st := .active p } })

/-- The arbiter leaves ACTIVE for NONE or CHANGEOVER (R146). -/
def leaveActive (dest : ArbState) (s : State) : State :=
  requestPass (openSwitch { s with arb := { s.arb with st := dest } })

/-- The arbiter moves between NONE and CHANGEOVER: no switch moves (R146). -/
def goIdle (dest : ArbState) (s : State) : State := requestPass { s with arb := { s.arb with st := dest } }

/-- A port becomes eligible (R147). -/
def arbGain (p : PortId) (s : State) : State :=
  match s.arb.st with
  | .none => if s.arb.brk.isSome then goIdle .changeover s else goActive p s
  | .active q => if q ≠ p ∧ p = preferredPort s.lim then leaveActive .changeover s else s
  | .changeover => s

/-- A port loses eligibility (R148). -/
def arbLoss (p : PortId) (s : State) : State :=
  match s.arb.st with
  | .active q =>
    if q = p then leaveActive (if eligible s (otherPort p) then .changeover else .none) s else s
  | .none => s
  | .changeover => s

/-- The port chosen at the end of a changeover: the preferred port if it is eligible, otherwise the other if that is
(R149). -/
def chosenPort (s : State) : Option PortId :=
  if eligible s (preferredPort s.lim) then some (preferredPort s.lim)
  else if eligible s (otherPort (preferredPort s.lim)) then some (otherPort (preferredPort s.lim))
  else none

/-- The choice at the end of a changeover (R149). -/
def endChangeover (s : State) : State :=
  match chosenPort s with
  | some p => latch .changeoverDone (goActive p s)
  | none => goIdle .none s

/-- The break timer has run out (R149). -/
def breakExpiry (s : State) : State :=
  if s.arb.brk = some 0 then
    let s' := { s with arb := { s.arb with brk := none } }
    if s.arb.st = .changeover then endChangeover s' else s'
  else s

/-- A SET_LIMIT has changed CABLE_PREFERRED (R150). -/
def preferenceChange (s : State) : State :=
  match s.arb.st with
  | .active q =>
    if q ≠ preferredPort s.lim ∧ eligible s (preferredPort s.lim) then leaveActive .changeover s else s
  | .none => s
  | .changeover => s

end Sys2Proof.Machine
end

