-- ==== Sys2Proof/Machine/Ports.lean ====
section
/-! DEFINITION. The input ports: presence, offers, selection, contracts, droop, re-evaluation, isolation, overvoltage, and the
die monitor that halves their ceilings (chapters 8 and 9). -/

namespace Sys2Proof.Machine

/-! ### Selection (R135) -/

/-- A figure rounded up to a multiple of 20 mV (R135). -/
def roundUp20 (v : Nat) : Nat := (v + 19) / 20 * 20

/-- The intersection of an offer with an acceptance entry's window, empty as none (R135, step 1). -/
def intersection (o : Offer) (a : ProfileEntry) : Option (Nat × Nat) :=
  match o with
  | .fixed v _ => if a.vlo ≤ v ∧ v ≤ a.vhi then some (v, v) else none
  | .range lo hi _ => if max lo a.vlo ≤ min hi a.vhi then some (max lo a.vlo, min hi a.vhi) else none

/-- The current limit of an offer. -/
def Offer.imax : Offer → Nat
  | .fixed _ i => i
  | .range _ _ i => i

/-- The candidate voltage of a pair (R135, step 3). -/
def candidateVolt (P : Nat) (o : Offer) (lo hi imax : Nat) : Nat :=
  match o with
  | .fixed v _ => v
  | .range _ _ _ =>
    let need := roundUp20 (ceilDiv (P * 1000) imax)
    if need ≤ hi then max need lo else hi

/-- The candidate of an offer and a used acceptance entry under the ceiling P (R135, steps 1 to 4). -/
def candidate (P : Nat) (o : Offer) (oi : Nat) (a : ProfileEntry) (ai : Nat) : Option Proposal :=
  if a.imax = 0 then none
  else
    match intersection o a with
    | none => none
    | some (lo, hi) =>
      let imax := min o.imax a.imax
      let v := candidateVolt P o lo hi imax
      let i := min imax (ceilCurrent P v)
      if i < 100 then none else some ⟨v, i, oi, ai⟩

/-- The candidate power of R135, step 5. -/
def Proposal.power (c : Proposal) : Nat := c.v * c.i / 1000

/-- Whether a candidate is better than another: higher power, then lower voltage (R135). -/
def Proposal.better (c d : Proposal) : Bool :=
  d.power < c.power || (c.power == d.power && c.v < d.v)

/-- The better of the best so far and a candidate met later; a tie keeps the earlier, whose offer index, then acceptance index, is
lower (R135). -/
def pickBetter (best c : Option Proposal) : Option Proposal :=
  match best, c with
  | none, c => c
  | some b, none => some b
  | some b, some c => if c.better b then some c else some b

/-- The best candidate of one offer against the profile entries from index `ai` on. -/
def bestOfOffer (P : Nat) (o : Offer) (oi : Nat) : List ProfileEntry → Nat → Option Proposal → Option Proposal
  | [], _, best => best
  | a :: as, ai, best => bestOfOffer P o oi as (ai + 1) (pickBetter best (candidate P o oi a ai))

/-- The best candidate of the offers from index `oi` on. -/
def bestOfOffers (P : Nat) (prof : List ProfileEntry) : List Offer → Nat → Option Proposal → Option Proposal
  | [], _, best => best
  | o :: os, oi, best => bestOfOffers P prof os (oi + 1) (bestOfOffer P o oi prof 1 best)

/-- Selection: the best contract of the stored offers and the acceptance profile under the ceiling P (R135). -/
def selection (P : Nat) (l : Limits) (offers : List Offer) : Option Proposal :=
  bestOfOffers P l.profile.toList offers 1 none

/-! ### Port steps -/

/-- What a port step leaves: the port and the conditions it latches. -/
structure PortStep where
  port : Port
  conds : List Condition
  deriving DecidableEq, Repr

/-- A step that latches nothing. -/
def quiet (q : Port) : PortStep := ⟨q, []⟩

/-- The voltage and current of a held contract: a change of these is a change of the held contract (R140). -/
def contractOf (q : Port) : Option (Nat × Nat) := q.held.map fun h => (h.v, h.i)

/-- A gain or a loss of eligibility is handed to the arbiter within the event (R139). -/
def handEligibility (p : PortId) (before : Bool) (s : State) : State :=
  if before = eligible s p then s else if before then arbLoss p s else arbGain p s

/-- A port takes a step: the record is replaced, its conditions latch, a change of the held contract requests a pass, and a change
of eligibility goes to the arbiter (R139, R140, R164). -/
def stepPort (p : PortId) (w : PortStep) (s : State) : State :=
  let old := s.port.get p
  handEligibility p old.eligible
    (requestPassIf (contractOf old != contractOf w.port)
      (latchAll w.conds { s with port := s.port.set p w.port }))

/-- A port without contract: held contract and proposal dropped, Ie 0, timer stopped (R131, R137, R143, R151). -/
def Port.dropContracts (q : Port) : Port := { q with held := none, prop := none, ie := 0, timer := none }

/-- Entry to REJECTED for a cause other than OVERVOLTAGE (R136, R137, R142). -/
def rejectPort (c : RejCause) (q : Port) : PortStep :=
  ⟨{ q.dropContracts with st := .rejected c }, [.contractRejected]⟩

/-- A held contract is taken: Ie becomes min(held current, the ceiling current at Vc), and the port is READY (R138, R140). -/
def takeContract (P : Nat) (h : Held) (q : Port) : PortStep :=
  ⟨{ q with st := .ready, held := some h, prop := none, ie := min h.i (ceilCurrent P h.v), timer := none },
    [.contractReady]⟩

/-- The contract of 5,000 mV at min(DEFAULT_I, the ceiling current there) (R136, R138). -/
def fiveVolt (P : Nat) (l : Limits) (o : Origin) : Held := ⟨5000, min l.defaultI (ceilCurrent P 5000), o⟩

/-- Whether some used acceptance entry holds 5,000 mV in its window at an imax of DEFAULT_I or more (R136). -/
def defaultQualified (l : Limits) : Bool :=
  l.profile.toList.any fun a => a.imax != 0 && a.vlo ≤ 5000 && 5000 ≤ a.vhi && l.defaultI ≤ a.imax

/-- Whether a voltage lies in the default window (R136). -/
def inDefaultWindow (v : Nat) : Bool := 4400 ≤ v && v ≤ 5600

/-- Default classification (R136). -/
def classify (P : Nat) (l : Limits) (q : Port) : PortStep :=
  if inDefaultWindow q.vin = false then rejectPort .outOfWindow q
  else if defaultQualified l = false then rejectPort .unqualifiedDefault q
  else takeContract P (fiveVolt P l .defaulted) q

/-- Entry to PROPOSED with a new proposal (R137). -/
def propose (r : Proposal) (q : Port) : PortStep :=
  ⟨{ q with st := .proposed, prop := some r, timer := some Config.confirmTime }, [.contractProposed]⟩

/-- Whether a result of selection is equal to the held contract (R135). -/
def equalsHeld (r : Proposal) (q : Port) : Bool := q.held.any fun h => h.v == r.v && h.i == r.i

/-- Whether a result of selection is equal to the proposal in flight (R135, R137). -/
def equalsProposal (r : Proposal) (q : Port) : Bool :=
  (q.st == .proposed || q.st == .confirming) && q.prop.any fun c => c.v == r.v && c.i == r.i

/-- A result of selection decides the port (R137). It is compared with the held contract before the proposal, and no result is an
entry to REJECTED(NO_COMMON) with its condition also from REJECTED(NO_COMMON) itself (DEDUCED, log 21), at the re-evaluation of a
control reset too (DESIGN CHOICE, log 31). -/
def takeResult (res : Option Proposal) (q : Port) : PortStep :=
  match res with
  | none => rejectPort .noCommon q
  | some r =>
    if equalsHeld r q then
      quiet { q with st := .ready, prop := none, timer := none, held := some ⟨r.v, r.i, .negotiated r.offer⟩ }
    else if equalsProposal r q then quiet q
    else propose r q

/-! ### Commands (R134, R137, R138, R143) -/

/-- Whether OFFERS selects in a port state (R137). -/
def PortState.selects : PortState → Bool
  | .detecting => true
  | .proposed => true
  | .confirming => true
  | .ready => true
  | .rejected .noCommon => true
  | .rejected .unqualifiedDefault => false
  | .rejected .outOfWindow => false
  | .rejected .overvoltage => false
  | .detached => false
  | .isolated => false

/-- OFFERS (R134, R137). -/
def offersCmd (args : List Byte) (s : State) : Result :=
  match offersArgs args with
  | none => refuse s .badArg
  | some (p, os) =>
    let valid := os.filter Offer.valid
    let out : Outc := if valid.length = os.length then .done else .doneClamped
    let q := s.port.get p
    if valid = [] then refuse s .badArg
    else if q.st = .isolated then ⟨stepPort p (quiet { q with offers := valid }) s, out, []⟩
    else if q.st.selects then
      ⟨stepPort p (takeResult (selection (portCeiling s p) s.lim valid) { q with offers := valid }) s, out, []⟩
    else refuse s .wrongState

/-- APPLIED (R138). -/
def appliedCmd (args : List Byte) (s : State) : Result :=
  match portArg args with
  | none => refuse s .badArg
  | some p =>
    let q := s.port.get p
    if q.st = .proposed then
      doneWith (stepPort p (quiet { q with st := .confirming, timer := some Config.verifyWindow }) s)
    else refuse s .wrongState

/-- A port taken into ISOLATED: contracts dropped, offers kept (R143). -/
def isolateOn (q : Port) : PortStep := quiet { q.dropContracts with st := .isolated }

/-- A port taken out of ISOLATED: selection from its stored offers, or detection anew (R143). -/
def isolateOff (P : Nat) (l : Limits) (q : Port) : PortStep :=
  if q.offers = [] then quiet { q with st := .detecting, timer := some Config.offerWindow }
  else
    match selection P l q.offers with
    | some r => propose r q
    | none => rejectPort .noCommon q

/-- ISOLATE (R143). -/
def isolateCmd (args : List Byte) (s : State) : Result :=
  match portOnOff args with
  | none => refuse s .badArg
  | some (p, on) =>
    let q := s.port.get p
    if q.st = .rejected .overvoltage then refuse s .wrongState
    else if on then
      if q.st = .detached then refuse s .wrongState
      else if q.st = .isolated then doneWith s
      else doneWith (stepPort p (isolateOn q) s)
    else if q.st = .isolated then doneWith (stepPort p (isolateOff (portCeiling s p) s.lim q) s)
    else doneWith s

/-! ### Samples (R130, R131, R138, R151) -/

/-- The attach run reaches 3 (R130). -/
def attach (q : Port) : PortStep :=
  ⟨{ q with st := .detecting, attachRun := 0, detachRun := 0, timer := some Config.offerWindow }, [.inputAttach]⟩

/-- The detach run reaches 3 (R131, R151). -/
def detach (q : Port) : PortStep :=
  ⟨{ q.dropContracts with st := .detached, offers := [], attachRun := 0, detachRun := 0, ovRun := 0 }, [.inputDetach]⟩

/-- The overvoltage run reaches 2 (R151). -/
def tripOvervoltage (q : Port) : PortStep :=
  ⟨{ q.dropContracts with st := .rejected .overvoltage, ovRun := 0 }, [.inputOvervoltage]⟩

/-- The attach test of a sample in DETACHED (R130). -/
def attachTest (q : Port) : PortStep :=
  let n := if 4000 ≤ q.vin then q.attachRun + 1 else 0
  if 3 ≤ n then attach q else quiet { q with attachRun := n }

/-- The detach test of a sample in any other state (R131). -/
def detachTest (q : Port) : PortStep :=
  let n := if q.vin < 3500 then q.detachRun + 1 else 0
  if 3 ≤ n then detach q else quiet { q with detachRun := n }

/-- The reference voltage of the overvoltage test (R151). -/
def ovReference (q : Port) : Nat :=
  match q.held, q.prop with
  | none, none => 16500
  | some h, none => h.v
  | none, some c => c.v
  | some h, some c => max h.v c.v

/-- Whether the latest sample is within ±5 % of a voltage (R138). -/
def within5 (vin v : Nat) : Bool := absDiff vin v * 20 ≤ v

/-- The verify test of a sample in CONFIRMING (R138). -/
def verifyTest (P : Nat) (q : Port) : PortStep :=
  match q.st, q.prop with
  | .confirming, some c =>
    if within5 q.vin c.v then takeContract P ⟨c.v, c.i, .negotiated c.offer⟩ q else quiet q
  | _, _ => quiet q

/-- The overvoltage test of a sample, then the verify test unless it trips (R151). -/
def overvoltageTest (P : Nat) (q : Port) : PortStep :=
  if q.st = .detached ∨ q.st = .rejected .overvoltage then quiet q
  else
    let n := if ovReference q * 11 < q.vin * 10 then q.ovRun + 1 else 0
    if 2 ≤ n then tripOvervoltage q else verifyTest P { q with ovRun := n }

/-- The whole test of a sample already stored as Vin: attach or detach, then overvoltage, then verify (R130, R151). -/
def sampleTests (P : Nat) (q : Port) : PortStep :=
  let a := if q.st = .detached then attachTest q else detachTest q
  let b := overvoltageTest P a.port
  ⟨b.port, a.conds ++ b.conds⟩

/-- An input port takes its sample (R130); the next slot comes 10 ms on. -/
def inputSample (p : PortId) (vin : Int) (s : State) : State :=
  stepPort p (sampleTests (portCeiling s p) { s.port.get p with vin := (clampInt 0 20000 vin).toNat })
    { s with slots := { s.slots with input := s.slots.input.set p Config.slotPeriod } }

/-- The attach run of a port reaches 3: it is counted in DETACHED (R130). -/
def attachRun (p : PortId) (s : State) : State :=
  if (s.port.get p).st = .detached then stepPort p (attach (s.port.get p)) s else s

/-- The detach run of a port reaches 3: it is counted in every state but DETACHED (R131). -/
def detachRun (p : PortId) (s : State) : State :=
  if (s.port.get p).st = .detached then s else stepPort p (detach (s.port.get p)) s

/-- The overvoltage run of a port reaches 2: it is counted in every state but DETACHED and REJECTED(OVERVOLTAGE) (R151). -/
def inputOvervoltageRun (p : PortId) (s : State) : State :=
  if (s.port.get p).st = .detached ∨ (s.port.get p).st = .rejected .overvoltage then s
  else stepPort p (tripOvervoltage (s.port.get p)) s

/-! ### Timers (R136, R138) -/

/-- The offer window has run out in DETECTING (R136). -/
def offerWindowExpiry (p : PortId) (s : State) : State :=
  let q := s.port.get p
  if q.st = .detecting ∧ q.timer = some 0 then stepPort p (classify (portCeiling s p) s.lim q) s else s

/-- The confirm timer has run out in PROPOSED: the proposal is dropped (R138). -/
def confirmExpiry (p : PortId) (s : State) : State :=
  let q := s.port.get p
  if q.st = .proposed ∧ q.timer = some 0 then
    if q.held.isSome then stepPort p (quiet { q with st := .ready, prop := none, timer := none }) s
    else stepPort p (classify (portCeiling s p) s.lim { q with prop := none }) s
  else s

/-- What the port decides at the expiry of the verify window, from the latest Vin (R138). -/
def verifyDecision (P : Nat) (l : Limits) (q : Port) : PortStep :=
  if q.held.any fun h => within5 q.vin h.v then quiet { q with st := .ready, prop := none, timer := none }
  else if inDefaultWindow q.vin then takeContract P (fiveVolt P l .fallback) q
  else rejectPort .outOfWindow q

/-- The verify window has run out in CONFIRMING (R138). -/
def verifyExpiry (p : PortId) (s : State) : State :=
  let q := s.port.get p
  if q.st = .confirming ∧ q.timer = some 0 then stepPort p (verifyDecision (portCeiling s p) s.lim q) s else s

/-! ### Droop (R141) -/

/-- The effective current after a droop step of a port holding a contract (R141). -/
def droopIe (P margin : Nat) (h : Held) (vin ie : Nat) : Nat :=
  if vin + margin < h.v then (if ie ≤ 100 then ie else max 100 (ie - 100))
  else if h.v + 100 ≤ vin + margin then min (min h.i (ceilCurrent P h.v)) (ie + 100)
  else ie

/-- The active port takes its droop step at a pass event; no port is active in NONE or CHANGEOVER (R33, R141). -/
def droopStep (s : State) : State :=
  match activePort s with
  | none => s
  | some p =>
    let q := s.port.get p
    match q.held with
    | none => s
    | some h =>
      { s with port := s.port.set p { q with ie := droopIe (portCeiling s p) s.lim.droopMargin h q.vin q.ie } }

/-! ### Re-evaluation (R142) -/

/-- Whether a port state is re-evaluated (R142). -/
def PortState.reevaluated : PortState → Bool
  | .ready => true
  | .proposed => true
  | .confirming => true
  | .rejected .noCommon => true
  | .rejected .unqualifiedDefault => false
  | .rejected .outOfWindow => false
  | .rejected .overvoltage => false
  | .detached => false
  | .detecting => false
  | .isolated => false

/-- Step 1 of re-evaluation: Ie is capped under the new ceiling (R142). -/
def capIe (P : Nat) (q : Port) : Port :=
  match q.held with
  | none => q
  | some h => { q with ie := min q.ie (ceilCurrent P h.v) }

/-- Whether a held contract is DEFAULTED or FALLBACK (R142). -/
def Held.isDefault (h : Held) : Bool :=
  match h.origin with
  | .negotiated _ => false
  | .defaulted => true
  | .fallback => true

/-- The held current of a default contract that still qualifies, with Ie lowered to it (R142, step 2). -/
def requalify (P : Nat) (l : Limits) (q : Port) : Port :=
  match q.held with
  | none => q
  | some h =>
    if h.isDefault then
      let i := min l.defaultI (ceilCurrent P 5000)
      { q with held := some { h with i := i }, ie := min q.ie i }
    else q

/-- Step 3 of re-evaluation: selection, where the port holds stored offers (R142). -/
def reselect (P : Nat) (l : Limits) (q : Port) : PortStep :=
  if q.offers = [] then quiet q else takeResult (selection P l q.offers) q

/-- Re-evaluation of a port (R142). -/
def reevaluate (P : Nat) (l : Limits) (q : Port) : PortStep :=
  if (q.held.any fun h => h.isDefault) ∧ defaultQualified l = false then rejectPort .unqualifiedDefault (capIe P q)
  else reselect P l (requalify P l (capIe P q))

/-- Whether re-evaluation lowers a port's Ie, which requests a pass (R142). -/
def reevaluationLowers (P : Nat) (l : Limits) (q : Port) : Bool :=
  (capIe P q).ie < q.ie || (reevaluate P l q).port.ie < q.ie

/-- A port is re-evaluated within the event that changes its inputs to selection (R142). -/
def reevaluatePort (p : PortId) (s : State) : State :=
  let q := s.port.get p
  if q.st.reevaluated then
    requestPassIf (reevaluationLowers (portCeiling s p) s.lim q)
      (stepPort p (reevaluate (portCeiling s p) s.lim q) s)
  else s

/-- Both ports are re-evaluated; the spec names no order between them. -/
def reevaluateBoth (s : State) : State :=
  if Config.coilReevaluatedFirst then reevaluatePort .cable (reevaluatePort .coil s)
  else reevaluatePort .coil (reevaluatePort .cable s)

/-! ### Die monitor (R152) -/

/-- The die zone changes: both ports are handed the change and re-evaluated (R152). -/
def setDieZone (hot : Bool) (s : State) : State := reevaluateBoth { s with dieHot := hot }

/-- The die monitor takes its sample (R152); the next slot comes 10 ms on. -/
def dieSample (t : Int) (s : State) : State :=
  let s1 := { s with slots := { s.slots with die := Config.slotPeriod } }
  let t' := clampInt (-40) 150 t
  if s.dieHot = false ∧ 110 ≤ t' then setDieZone true (latch .dieHot s1)
  else if s.dieHot = true ∧ t' ≤ 100 then setDieZone false s1
  else s1

/-! ### READ_INPUT (R144, R174) -/

/-- The code of a port state (R174). -/
def PortState.code : PortState → Nat
  | .detached => 0
  | .detecting => 1
  | .proposed => 2
  | .confirming => 3
  | .ready => 4
  | .isolated => 5
  | .rejected .noCommon => 6
  | .rejected .unqualifiedDefault => 7
  | .rejected .outOfWindow => 8
  | .rejected .overvoltage => 9

/-- A voltage code (R174). -/
def voltCode (v : Nat) : Nat := (v - 4000) / 20

/-- A current code (R174). -/
def curCode (i : Nat) : Nat := i / 10

/-- The held form and body of the input answer (R174). The body without a held contract is sent as 0 (DESIGN CHOICE, log 28). -/
def heldFields : Option Held → List (Nat × Nat)
  | none => [(4, 0), (19, 0)]
  | some h =>
    match h.origin with
    | .negotiated n => [(4, n), (10, voltCode h.v), (9, curCode h.i)]
    | .defaulted => [(4, 7), (7, 0), (12, h.i)]
    | .fallback => [(4, 8), (7, 0), (12, h.i)]

/-- The proposal fields of the input answer (R174). Without a proposal all of them are sent as 0 (DESIGN CHOICE, log 28). -/
def proposalFields : Option Proposal → List (Nat × Nat)
  | none => [(3, 0), (2, 0), (10, 0), (9, 0)]
  | some c => [(3, c.offer), (2, c.entry - 1), (10, voltCode c.v), (9, curCode c.i)]

/-- One offer slot of the input answer (R174): vhi code 1023 marks FIXED. -/
def offerFields : Offer → List (Nat × Nat)
  | .fixed v i => [(10, voltCode v), (10, 1023), (9, curCode i)]
  | .range lo hi i => [(10, voltCode lo), (10, voltCode hi), (9, curCode i)]

/-- The six offer slots of the input answer; empty ones are all zeros (R174). -/
def offerSlots : Nat → List Offer → List (Nat × Nat)
  | 0, _ => []
  | n + 1, [] => (29, 0) :: offerSlots n []
  | n + 1, o :: os => offerFields o ++ offerSlots n os

/-- The fields of the input answer, with the one zero bit that follows them (R174). -/
def inputFields (s : State) (p : PortId) : List (Nat × Nat) :=
  let q := s.port.get p
  [(4, q.st.code), (1, (decide (activePort s = some p)).toNat), (1, s.dieHot.toNat), (15, q.vin), (13, q.ie)] ++
    heldFields q.held ++ proposalFields q.prop ++ offerSlots 6 q.offers ++ [(1, 0)]

/-- READ_INPUT (R144). -/
def readInputCmd (args : List Byte) (s : State) : Result :=
  match portArg args with
  | none => refuse s .badArg
  | some p => ⟨s, .done, packed (inputFields s p)⟩

end Sys2Proof.Machine
end

