-- ==== Sys2Proof/Machine/Records.lean ====
section
/-! DEFINITION. The reservation controller: the verdicts of a pass, the ends of records, and the six commands on the
table (chapter 1). -/

namespace Sys2Proof.Machine

/-! ### Verdicts (R15 to R18) -/

/-- The change mark is set, except on slot 0 (R25). -/
def Record.marked (k : Fin 24) (r : Record) : Record := { r with mark := r.mark || k != 0 }

/-- The grant counter takes its next value and the record takes it as its grant stamp (R3). -/
def takeGrantStamp (s : State) : State :=
  { s with resv := { s.resv with grants := nextStamp s.resv.grants } }

/-- The record a grant verdict leaves (R15). -/
def Record.grant (k : Fin 24) (stamp : Nat) (r : Record) : Record :=
  if r.st = .granted then
    { r with draw := r.pendDraw.getD r.draw, pendDraw := none, grantStamp := some stamp }.marked k
  else
    { r with st := .granted, waitRem := none, grantStamp := some stamp }.marked k

/-- A grant verdict on the record of a slot (R15). -/
def grantVerdict (k : Fin 24) (s : State) : State :=
  match recordOf s k with
  | none => s
  | some r => putRecord k (r.grant k (nextStamp s.resv.grants)) (takeGrantStamp s)

/-- A no-room verdict on the record of a slot, if it is PENDING (R16). -/
def noRoomVerdict (k : Fin 24) (s : State) : State :=
  match recordOf s k with
  | none => s
  | some r => if r.st = .pending then putRecord k ({ r with st := .waiting .noRoom }.marked k) s else s

/-- The record a shed verdict leaves (R17). -/
def Record.shed (k : Fin 24) (r : Record) : Record :=
  { r with
    st := .waiting .revoked
    draw := r.pendDraw.getD r.draw
    pendDraw := none
    waitRem := if r.waitSet = 0 then none else some r.waitSet }.marked k

/-- A shed verdict on the record of a slot (R17). -/
def shedVerdict (k : Fin 24) (s : State) : State :=
  match recordOf s k with
  | none => s
  | some r => putRecord k (r.shed k) s

/-- The equalizing record as the budget pass creates it (R18). -/
def equalizingRecord (draw arrival : Nat) (d : Dir) : Record where
  owner := 15
  prio := 0
  kind := .steady
  st := .pending
  draw := draw
  pendDraw := none
  lifeSet := 0
  lifeRem := none
  burstSet := 0
  burstRem := none
  burstTot := none
  waitSet := 0
  waitRem := none
  arrival := arrival
  grantStamp := none
  mark := false
  dir := some d

/-- The arrival counter takes its next value (R3). -/
def takeArrivalStamp (s : State) : State :=
  { s with resv := { s.resv with arrivals := nextStamp s.resv.arrivals } }

/-- The budget pass starts the equalizer: the record is created in slot 0 with the next arrival stamp (R18). -/
def startEqualizer (d : Dir) (s : State) : State :=
  putRecord 0 (equalizingRecord s.lim.eqPower (nextStamp s.resv.arrivals) d) (takeArrivalStamp s)

/-! ### Ends (R19 to R24) -/

/-- Whether a record is PENDING, WAITING or GRANTED. -/
def Record.live (r : Record) : Bool :=
  match r.st with
  | .pending => true
  | .granted => true
  | .waiting _ => true
  | .ended _ => false

/-- The record an end leaves: ENDED with its cause, its mark set, its timers stopped and its pending draw dropped; the
burst total keeps its value (R23). -/
def Record.finish (k : Fin 24) (c : EndCause) (r : Record) : Record :=
  { r with st := .ended c, pendDraw := none, lifeRem := none, burstRem := none, waitRem := none }.marked k

/-- An expiry or silence release ends the record of a slot; if it was GRANTED a pass is requested (R23). -/
def endRecord (k : Fin 24) (c : EndCause) (s : State) : State :=
  match recordOf s k with
  | none => s
  | some r => if r.live then requestPassIf (r.st = .granted) (putRecord k (r.finish k c) s) else s

/-- A record is ended by an expiry where its timer has run out. Elsewhere the expiry does not happen: on a FREE slot, on an ENDED
record, where a grant or a shed has stopped the timer, and after a RENEW that restarted it (R23, R26; a row that comes with time
remaining: DESIGN CHOICE, log 4). -/
def expireWhere (due : Record → Bool) (k : Fin 24) (c : EndCause) (s : State) : State :=
  match recordOf s k with
  | none => s
  | some r => if due r then endRecord k c s else s

/-- A record's lifetime has run out (R19). -/
def Record.lifetimeDue (r : Record) : Bool := r.live && r.lifeRem == some 0

/-- A GRANTED burst's remaining time has run out (R20). -/
def Record.burstDue (r : Record) : Bool := r.st == .granted && r.kind == .burst && r.burstRem == some 0

/-- A GRANTED burst's total has reached 5,000 ms (R21). -/
def Record.burstTotalDue (r : Record) : Bool := r.st == .granted && r.kind == .burst && r.burstTot == some Config.burstTotalMax

/-- A record's wait, which runs in PENDING and WAITING, has run out (R22). -/
def Record.waitLimitDue (r : Record) : Bool := r.live && r.st != .granted && r.waitRem == some 0

/-- The expiry of a record's lifetime (R19). -/
def lifetimeExpiry (k : Fin 24) (s : State) : State := expireWhere Record.lifetimeDue k .lifetime s

/-- The expiry of a GRANTED burst's remaining time (R20). -/
def burstExpiry (k : Fin 24) (s : State) : State := expireWhere Record.burstDue k .lapsed s

/-- A GRANTED burst's total reaches 5,000 ms (R21). -/
def burstTotalExpiry (k : Fin 24) (s : State) : State := expireWhere Record.burstTotalDue k .overstay s

/-- The expiry of a record's wait (R22). -/
def waitLimitExpiry (k : Fin 24) (s : State) : State := expireWhere Record.waitLimitDue k .waitLimit s

/-- The slots of host records, 1 to 23 in ascending order (R1). -/
def hostSlots : List (Fin 24) := (List.finRange 24).tail

/-- Silence release of one slot: a host record of priority 0 to 6 is ended ABANDONED (R24). -/
def abandon (k : Fin 24) (s : State) : State :=
  match recordOf s k with
  | none => s
  | some r => if r.prio ≤ 6 then endRecord k .abandoned s else s

/-- Silence release (R24), with the condition it latches. -/
def silenceRelease (s : State) : State :=
  latch .silenceRelease (hostSlots.foldl (fun t k => abandon k t) s)

/-! ### Commands (R5 to R13) -/

/-- The lowest-numbered FREE slot among 1 to 23 (R1). -/
def freeHostSlot (s : State) : Option (Fin 24) := hostSlots.find? fun k => (recordOf s k).isNone

/-- The record a RESERVE creates (R7). -/
def newRecord (a : ReserveArgs) (arrival : Nat) : Record where
  owner := a.owner
  prio := a.prio
  kind := a.kind
  st := .pending
  draw := a.draw
  pendDraw := none
  lifeSet := a.life
  lifeRem := if a.life = 0 then none else some (a.life * 1000)
  burstSet := a.burst
  burstRem := if a.kind = .burst then some a.burst else none
  burstTot := if a.kind = .burst then some 0 else none
  waitSet := a.wait
  waitRem := if a.wait = 0 then none else some a.wait
  arrival := arrival
  grantStamp := none
  mark := false
  dir := none

/-- The two bytes of a slot's handle (R172). -/
def handleBytes (s : State) (k : Fin 24) : List Byte := [BitVec.ofNat 8 k.val, (slotOf s k).gen]

/-- RESERVE (R1, R6, R7). -/
def reserveCmd (args : List Byte) (s : State) : Result :=
  match reserveArgs args with
  | none => refuse s .badArg
  | some a =>
    match freeHostSlot s with
    | none => refuse s .tableFull
    | some k =>
      ⟨requestPass (putRecord k (newRecord a (nextStamp s.resv.arrivals)) (takeArrivalStamp s)), .done,
        handleBytes s k⟩

/-- The handle checks 2 to 4 of R5: the slot and the record a handle names, or the outcome of the first check to fail. -/
def checkHandle (h : HandleArgs) (s : State) : Except Outc (Fin 24 × Record) :=
  if hk : h.slot < 24 then
    if h.slot = 0 then .error .notOwner
    else
      match recordOf s ⟨h.slot, hk⟩ with
      | none => .error .staleHandle
      | some r =>
        if (slotOf s ⟨h.slot, hk⟩).gen ≠ h.gen then .error .staleHandle
        else if h.owner ≠ r.owner ∧ h.owner ≠ 0 then .error .notOwner
        else .ok (⟨h.slot, hk⟩, r)
  else .error .badHandle

/-- The record an ADJUST to `d` leaves (R8, R9). -/
def Record.adjust (d : Nat) (r : Record) : Record :=
  if r.st = .granted then
    if d < r.draw then { r with draw := d, pendDraw := none }
    else if d = r.draw then { r with pendDraw := none }
    else { r with pendDraw := some d }
  else { r with draw := d }

/-- ADJUST (R5, R8, R9). -/
def adjustCmd (args : List Byte) (s : State) : Result :=
  match adjustArgs args with
  | none => refuse s .badArg
  | some (h, d) =>
    match checkHandle h s with
    | .error o => refuse s o
    | .ok (k, r) => if r.live then doneWith (requestPass (putRecord k (r.adjust d) s)) else refuse s .wrongState

/-- A timer restarted at its setting; a timer whose setting is 0 is not running and stays so (R10). -/
def restarted (setting scale : Nat) : Option Nat := if setting = 0 then none else some (setting * scale)

/-- The record a RENEW leaves (R10). -/
def Record.renew (r : Record) : Record :=
  match r.st with
  | .granted =>
    match r.kind with
    | .burst => { r with burstRem := some r.burstSet }
    | .steady => { r with lifeRem := restarted r.lifeSet 1000 }
  | .pending => { r with lifeRem := restarted r.lifeSet 1000, waitRem := restarted r.waitSet 1 }
  | .waiting _ => { r with lifeRem := restarted r.lifeSet 1000, waitRem := restarted r.waitSet 1 }
  | .ended _ => r

/-- RENEW (R5, R10). -/
def renewCmd (args : List Byte) (s : State) : Result :=
  match handleArgs args with
  | none => refuse s .badArg
  | some h =>
    match checkHandle h s with
    | .error o => refuse s o
    | .ok (k, r) => if r.live then doneWith (putRecord k r.renew s) else refuse s .wrongState

/-- RELEASE (R5, R11). -/
def releaseCmd (args : List Byte) (s : State) : Result :=
  match handleArgs args with
  | none => refuse s .badArg
  | some h =>
    match checkHandle h s with
    | .error o => refuse s o
    | .ok (k, r) => doneWith (requestPassIf r.live (freeSlot k s))

/-! ### Answers of the table (R12, R13, R173) -/

/-- The code of a record's state (R173, byte 3). -/
def RecState.code : RecState → Nat
  | .pending => 1
  | .granted => 2
  | .waiting _ => 3
  | .ended _ => 4

/-- The code of a record's cause (R173, byte 4). -/
def RecState.causeCode : RecState → Nat
  | .pending => 0
  | .granted => 0
  | .waiting .noRoom => 1
  | .waiting .revoked => 2
  | .ended .lifetime => 1
  | .ended .lapsed => 2
  | .ended .overstay => 3
  | .ended .waitLimit => 4
  | .ended .abandoned => 5

/-- The presence byte of a record answer (R173, byte 6). -/
def presenceByte (r : Record) : Byte :=
  BitVec.ofNat 8 ((decide (r.kind = .burst)).toNat * 128 + r.mark.toNat * 64 + r.pendDraw.isSome.toNat * 32 +
    r.lifeRem.isSome.toNat * 16 + r.burstRem.isSome.toNat * 8 + r.waitRem.isSome.toNat * 4 +
    r.grantStamp.isSome.toNat * 2 + (decide (r.dir = some .bToA)).toNat)

/-- The 30-byte record answer (R173); an absent field is sent as 0. Bit 3 of byte 5, which the layout does not name, is sent as 0
(DESIGN CHOICE, log 28). -/
def recordBytes (k : Fin 24) (gen : Byte) (r : Record) : List Byte :=
  [BitVec.ofNat 8 k.val, gen, BitVec.ofNat 8 r.st.code, BitVec.ofNat 8 r.st.causeCode,
    BitVec.ofNat 8 (r.owner * 16 + r.prio), presenceByte r] ++
  bytesOf 2 r.draw ++ bytesOf 2 (r.pendDraw.getD 0) ++ bytesOf 2 r.lifeSet ++ bytesOf 4 (r.lifeRem.getD 0) ++
  bytesOf 2 r.burstSet ++ bytesOf 2 (r.burstRem.getD 0) ++ bytesOf 2 (r.burstTot.getD 0) ++ bytesOf 2 r.waitSet ++
  bytesOf 2 (r.waitRem.getD 0) ++ bytesOf 2 r.arrival ++ bytesOf 2 (r.grantStamp.getD 0)

/-- The QUERY payload of a slot (R12, R173). -/
def slotBytes (s : State) (k : Fin 24) : List Byte :=
  match recordOf s k with
  | none => [BitVec.ofNat 8 k.val, (slotOf s k).gen, 0]
  | some r => recordBytes k (slotOf s k).gen r

/-- QUERY (R12). -/
def queryCmd (args : List Byte) (s : State) : Result :=
  match args with
  | [b] => if h : b.toNat < 24 then ⟨s, .done, slotBytes s ⟨b.toNat, h⟩⟩ else refuse s .badHandle
  | _ => refuse s .badArg

/-- The slots of 1 to 23 whose record carries a change mark, ascending (R13). -/
def markedSlots (s : State) : List (Fin 24) := hostSlots.filter fun k => (recordOf s k).any fun r => r.mark

/-- COLLECT clears the change mark of a record it reports (R13). -/
def clearMark (k : Fin 24) (s : State) : State :=
  match recordOf s k with
  | none => s
  | some r => putRecord k { r with mark := false } s

/-- The three bytes of a COLLECT entry (R173). -/
def collectEntry (s : State) (k : Fin 24) : List Byte :=
  match recordOf s k with
  | none => []
  | some r => [BitVec.ofNat 8 k.val, (slotOf s k).gen, BitVec.ofNat 8 (r.st.code * 16 + r.st.causeCode)]

/-- COLLECT (R13, R173): up to 8 marked records are reported and their marks cleared; "more" is set when marks remain.
Bits 6..4 of the count byte, which the layout does not name, are sent as 0 (DESIGN CHOICE, log 28). -/
def collectCmd (args : List Byte) (s : State) : Result :=
  match args with
  | [] =>
    let ks := (markedSlots s).take 8
    let more := 8 < (markedSlots s).length
    ⟨ks.foldl (fun t k => clearMark k t) s, .done,
      BitVec.ofNat 8 ((decide more).toNat * 128 + ks.length) :: ks.flatMap (collectEntry s)⟩
  | _ :: _ => refuse s .badArg

end Sys2Proof.Machine
end

