-- ==== Sys2Proof/Machine/Pass.lean ====
section
/-! DEFINITION. The budget pass (chapters 2 and 3): the droop step, then capability, equalizer, shedding, admission, net power and
split, publishing; and READ_BUDGET and the fold state. -/

namespace Sys2Proof.Machine

/-! ### Stage 1: capability (R34 to R39) -/

/-- The figures of the capability stage, with the voltages and limits it read. -/
structure Capability where
  S : Nat
  dA : Nat
  dB : Nat
  lossMax : Nat
  dBn : Nat
  T : Nat
  /-- Ie of the active port as the droop step left it -/
  ie : Nat
  volt : PerCell Nat
  disLim : PerCell Nat
  rh : Nat
  deriving DecidableEq, Repr

/-- The source allowance S of a held contract voltage and an effective current (R34). -/
def sourceAllowance (etaIn vc ie : Nat) : Nat := vc * ie / 1000 * etaIn / 256

/-- The active port's effective current, 0 where no port is active. -/
def activeIe (s : State) : Nat :=
  match activePort s with
  | some p => (s.port.get p).ie
  | none => 0

/-- The active port's held contract voltage, 0 where no port is active. -/
def activeVc (s : State) : Nat :=
  match activePort s with
  | some p =>
    match (s.port.get p).held with
    | some h => h.v
    | none => 0
  | none => 0

/-- The flex loss at a current, mW (R36, R59). -/
def flexLoss (i rh : Nat) : Nat := i * i * rh / 1000000

/-- The capability stage (R34 to R39). -/
def capability (s : State) : Capability :=
  let sAllow := sourceAllowance s.lim.etaIn (activeVc s) (activeIe s)
  let iA := disLimit s .A
  let iB := disLimit s .B
  let dA := cellVolt s .A * iA / 1000
  let dB := cellVolt s .B * iB / 1000
  let loss := flexLoss iB (hingeR s)
  let dBn := dB - loss
  { S := sAllow, dA := dA, dB := dB, lossMax := loss, dBn := dBn, T := sAllow + dA + dBn, ie := activeIe s,
    volt := ⟨cellVolt s .A, cellVolt s .B⟩, disLim := ⟨iA, iB⟩, rh := hingeR s }

/-- T − M, which may be negative (R39). -/
def shedLevel (c : Capability) (l : Limits) : Int := (c.T : Int) - l.margin

/-- T − M − H, which may be negative (R39). -/
def admitLevel (c : Capability) (l : Limits) : Int := (c.T : Int) - l.margin - l.admitHyst

/-! ### Stage 2: the equalizer (R65, R66) -/

/-- The system load L' = L + U − E (R51, R65, R66). -/
def systemLoad (s : State) (u : Nat) : Nat := grantedSum s + u - equalizerDraw s

/-- The low cell of a transfer. -/
def Dir.low : Dir → Cell
  | .aToB => .B
  | .bToA => .A

/-- The source cell of a transfer. -/
def Dir.source : Dir → Cell
  | .aToB => .A
  | .bToA => .B

/-- The direction from the cell with the higher state of charge to the other (R65). -/
def transferDir (sA sB : Nat) : Dir := if sB < sA then .aToB else .bToA

/-- Whether a low cell can take the transfer: a zone charge fraction above 0 and a phase other than FAULT (R65, R66). -/
def lowCellReady (s : State) (x : Cell) : Bool := (derateOf s x).charge != 0 && !(s.chg.get x).phase.isFault

/-- What R65 and R66 ask in common: EQ_ENABLE 1, the arbiter in NONE, cell B LIVE, both branches CLOSED, L' at most
EQ_LOAD_MAX. -/
def transferAllowed (s : State) (u : Nat) : Bool :=
  s.lim.eqEnable != 0 && s.arb.st == .none && s.hinge.dataState == .live && branchState s .A == .closed &&
    branchState s .B == .closed && systemLoad s u ≤ s.lim.eqLoadMax

/-- The direction in which the equalizer is to start, if all of R65's conditions hold. While a cell has no state of charge none does
(DESIGN CHOICE, log 5). -/
def startDir (s : State) (u : Nat) : Option Dir :=
  match soc s .A, soc s .B with
  | some a, some b =>
    let d := transferDir a b
    if transferAllowed s u ∧ s.lim.eqStart ≤ absDiff a b ∧ lowCellReady s d.low then some d else none
  | _, _ => none

/-- s_source − s_low of a transfer, worked with its fixed cells (R66). An absent state of charge is worked as 0 (DESIGN CHOICE, log 5). -/
def socGap (s : State) (d : Dir) : Int := ((soc s d.source).getD 0 : Int) - ((soc s d.low).getD 0 : Int)

/-- Whether R66 stops a transfer. -/
def stopsTransfer (s : State) (u : Nat) (d : Dir) : Bool :=
  !transferAllowed s u || !lowCellReady s d.low || socGap s d ≤ s.lim.eqStop

/-- The equalizer stage (R40, R65, R66): a start where slot 0 is FREE, a stop where it holds the record. -/
def equalizerStage (u : Nat) (s : State) : State :=
  match recordOf s 0 with
  | none =>
    match startDir s u with
    | some d => startEqualizer d s
    | none => s
  | some r => if stopsTransfer s u (r.dir.getD .aToB) then freeSlot 0 s else s

/-! ### Stage 3: shedding (R41 to R43) -/

/-- Whether record `r` of slot `k` is shed before record `q` of slot `j`: lowest priority, then latest grant stamp, then highest
slot (R42). -/
def shedBefore (k : Fin 24) (r : Record) (j : Fin 24) (q : Record) : Bool :=
  r.prio < q.prio ||
    (r.prio == q.prio &&
      (q.grantStamp.getD 0 < r.grantStamp.getD 0 || (r.grantStamp.getD 0 == q.grantStamp.getD 0 && j < k)))

/-- The one of two shed candidates that is shed first. -/
def pickShed (best : Option (Fin 24 × Record)) (k : Fin 24) (sl : Slot) : Option (Fin 24 × Record) :=
  match sl.record with
  | none => best
  | some r =>
    if r.st = .granted then
      match best with
      | none => some (k, r)
      | some (j, q) => if shedBefore k r j q then some (k, r) else some (j, q)
    else best

/-- The first GRANTED record in shed order (R42). -/
def firstToShed (s : State) : Option (Fin 24 × Record) :=
  (List.finRange 24).foldl (fun best k => pickShed best k (slotOf s k)) none

/-- What the shedding stage leaves: the state, the number of records shed, and whether one was of priority 7. -/
structure Shed where
  st : State
  n : Nat
  crit : Bool
  deriving DecidableEq, Repr

/-- The shedding loop (R41): while L + U > T − M and L > 0, the first record in shed order is shed. Each step takes one record out of
GRANTED, so as many steps as there are slots are enough. -/
def shedLoop (level : Int) (u : Nat) : Nat → Shed → Shed
  | 0, w => w
  | fuel + 1, w =>
    if (grantedSum w.st : Int) + u ≤ level ∨ grantedSum w.st = 0 then w
    else
      match firstToShed w.st with
      | none => w
      | some (k, r) =>
        shedLoop level u fuel ⟨count .recordsShed (shedVerdict k w.st), w.n + 1, w.crit || r.prio == 7⟩

/-- The shedding stage, with the conditions it latches (R41, R43). -/
def shedStage (level : Int) (u : Nat) (s : State) : Shed :=
  let w := shedLoop level u 24 ⟨s, 0, false⟩
  let s1 := if w.n = 0 then w.st else latch .shed w.st
  { w with st := if w.crit then latch .budgetCritical s1 else s1 }

/-! ### Stage 4: admission (R45 to R47) -/

/-- A candidate of the admission walk: its slot, priority, arrival stamp and need. -/
structure Candidate where
  slot : Fin 24
  prio : Nat
  arrival : Nat
  need : Nat
  deriving DecidableEq, Repr

/-- The need of a record, if it is a candidate (R45). -/
def needOf (r : Record) : Option Nat :=
  match r.st with
  | .pending => some r.draw
  | .waiting _ => some r.draw
  | .granted => r.pendDraw.map fun p => p - r.draw
  | .ended _ => none

/-- The candidate of a slot, if it holds one (R45). -/
def candidateAt (s : State) (k : Fin 24) : Option Candidate :=
  match recordOf s k with
  | none => none
  | some r => (needOf r).map fun n => ⟨k, r.prio, r.arrival, n⟩

/-- Admission order: priority from highest, then arrival stamp from lowest, then slot from lowest (R45). -/
def walksBefore (a b : Candidate) : Bool :=
  b.prio < a.prio ||
    (a.prio == b.prio && (a.arrival < b.arrival || (a.arrival == b.arrival && a.slot < b.slot)))

/-- Insert a candidate in admission order. -/
def insertCandidate (c : Candidate) : List Candidate → List Candidate
  | [] => [c]
  | d :: ds => if walksBefore c d then c :: d :: ds else d :: insertCandidate c ds

/-- The candidates in admission order (R45). -/
def candidates (s : State) : List Candidate :=
  ((List.finRange 24).filterMap (candidateAt s)).foldr insertCandidate []

/-- What the walk carries: the state, the fence and the number of grants. -/
structure Walk where
  st : State
  fence : Option Nat
  n : Nat
  deriving DecidableEq, Repr

/-- Whether a candidate is skipped below the fence (R46). -/
def belowFence (fence : Option Nat) (c : Candidate) : Bool := fence.any fun f => c.prio < f

/-- One candidate of the walk (R46, R47): skipped below the fence, granted where it fits, otherwise the fence is set; a PENDING record
not granted receives a no-room verdict. -/
def walkStep (level : Int) (u : Nat) (w : Walk) (c : Candidate) : Walk :=
  if belowFence w.fence c then { w with st := noRoomVerdict c.slot w.st }
  else if (grantedSum w.st : Int) + u + c.need ≤ level then ⟨grantVerdict c.slot w.st, w.fence, w.n + 1⟩
  else ⟨noRoomVerdict c.slot w.st, some (w.fence.getD c.prio), w.n⟩

/-- The admission stage (R45, R46). -/
def admitStage (level : Int) (u : Nat) (s : State) : Walk := (candidates s).foldl (walkStep level u) ⟨s, none, 0⟩

/-! ### Stage 5: net power and split (R51 to R63, R67, R68) -/

/-- The capacity share of cell A, 1024ths (R52). -/
def capacityShare (l : Limits) : Nat := 1024 * l.cap.get .A / (l.cap.get .A + l.cap.get .B)

/-- The balance term (R53): 0 within the deadband and while cell B is AWAITING; also 0 while cell A has no state of charge
(DESIGN CHOICE, log 5). -/
def balanceTerm (s : State) (charge : Bool) : Int :=
  if s.hinge.dataState = .awaiting then 0
  else
    match soc s .A, soc s .B with
    | some a, some b =>
      if absDiff a b ≤ s.lim.balDeadband then 0
      else if charge then ((s.lim.balGain : Int) * ((b : Int) - a)).tdiv 8
      else ((s.lim.balGain : Int) * ((a : Int) - b)).tdiv 8
    | _, _ => 0

/-- share_A, clamped to 0..1024 (R53). -/
def shareA (s : State) (charge : Bool) : Nat := (clampInt 0 1024 ((capacityShare s.lim : Int) + balanceTerm s charge)).toNat

/-- The charge cap of a cell at its voltage and ceiling (R54). -/
def chargeCap (s : State) (x : Cell) (v ceil : Nat) : Nat :=
  if (branchState s x).isOpen || (dataStateOf s x).holds then 0 else v * ceil / 1000

/-- The shares of a split and its unplaced remainder (R56). -/
structure Split where
  pA : Nat
  pB : Nat
  r : Nat
  deriving DecidableEq, Repr

/-- The split of an amount between two caps, in the four steps of R56. -/
def splitAmount (P share capA capB : Nat) : Split :=
  let a1 := P * share / 1024
  let b1 := P - a1
  let a2 := min a1 capA
  let b2 := b1 + (a1 - capA)
  let b3 := min b2 capB
  let a3 := min (a2 + (b2 - capB)) capA
  ⟨a3, b3, P - a3 - b3⟩

/-- The equalizing ceiling of the low cell (R67). -/
def equalizingCeiling (s : State) (x : Cell) : Nat := s.lim.fastI.get x * (derateOf s x).charge / 256

/-- The power the low cell receives from a transfer of E (R67). -/
def receivedPower (etaEq e cap : Nat) : Nat := min (e * etaEq / 256) cap

/-- The command of cell A from its net power (R58). -/
def commandA (net : Int) (v : Nat) : Int := if v = 0 then 0 else (net * 1000).tdiv v

/-- The command of cell B from its net power, with the correction for the hinge flex (R59, R60). -/
def commandB (net : Int) (v rh : Nat) : Int :=
  if v = 0 then 0
  else
    let p := net.natAbs
    let loss := flexLoss (p * 1000 / v) rh
    if net < 0 then -(((p + loss) * 1000 / v : Nat) : Int) else (((p - loss) * 1000 / v : Nat) : Int)

/-- The checks on a command before it is handed on (R61). `low` says the cell is the low cell of a granted equalizing record. -/
def checkCommand (s : State) (x : Cell) (low : Bool) (c : Int) : Int :=
  if (branchState s x).forbids c then 0
  else if 0 < c ∧ (dataStateOf s x).holds then 0
  else if 0 < c ∧ (s.chg.get x).phase.isFault ∧ low = false then 0
  else c

/-- The input current command (R63). -/
def inputCommand (S ie : Nat) (N : Int) (r : Nat) : Option Nat :=
  if S = 0 then none
  else if 0 ≤ N ∧ 0 < r then some (ceilDiv (ie * (S - r)) S)
  else some ie

/-- What the split stage produces. -/
structure SplitOut where
  st : State
  N : Int
  split : Split
  cmdA : Int
  cmdB : Int
  chgCeil : PerCell Nat
  deriving DecidableEq, Repr

/-- Net power N = S − L' (R51). -/
def netPower (c : Capability) (s : State) (u : Nat) : Int := (c.S : Int) - systemLoad s u

/-- The split with no granted equalizing record: a charge of N or a discharge of −N (R51, R54, R55). -/
def plainSplit (c : Capability) (N : Int) (s : State) : SplitOut :=
  if 0 ≤ N then
    let w := splitAmount N.toNat (shareA s true) (chargeCap s .A c.volt.a (chgCeiling s .A))
      (chargeCap s .B c.volt.b (chgCeiling s .B))
    ⟨s, N, w, checkCommand s .A false (commandA w.pA c.volt.a), checkCommand s .B false (commandB w.pB c.volt.b c.rh),
      ⟨chgCeiling s .A, chgCeiling s .B⟩⟩
  else
    let w := splitAmount N.natAbs (shareA s false) c.dA c.dBn
    ⟨s, N, w, checkCommand s .A false (commandA (-w.pA) c.volt.a),
      checkCommand s .B false (commandB (-w.pB) c.volt.b c.rh), ⟨chgCeiling s .A, chgCeiling s .B⟩⟩

/-- The split with a granted equalizing record of draw E and direction `d` (R55, R67, R68). -/
def transferSplit (c : Capability) (N : Int) (e : Nat) (d : Dir) (s : State) : SplitOut :=
  match d with
  | .aToB =>
    let ceil := equalizingCeiling s .B
    let w := splitAmount N.natAbs (shareA s false) (c.dA - e) c.dBn
    let got := receivedPower s.lim.etaEq e (chargeCap s .B c.volt.b ceil)
    ⟨s, N, w, checkCommand s .A false (commandA (-((w.pA : Int) + e)) c.volt.a),
      checkCommand s .B true (commandB ((got : Int) - w.pB) c.volt.b c.rh), ⟨chgCeiling s .A, ceil⟩⟩
  | .bToA =>
    let ceil := equalizingCeiling s .A
    let w := splitAmount N.natAbs (shareA s false) c.dA (c.dBn - e)
    let got := receivedPower s.lim.etaEq e (chargeCap s .A c.volt.a ceil)
    ⟨s, N, w, checkCommand s .A true (commandA ((got : Int) - w.pA) c.volt.a),
      checkCommand s .B false (commandB (-((w.pB : Int) + e)) c.volt.b c.rh), ⟨ceil, chgCeiling s .B⟩⟩

/-- The discharge allowance from which a transfer's draw is taken (R55). -/
def sourceCap (c : Capability) : Dir → Nat
  | .aToB => c.dA
  | .bToA => c.dBn

/-- The split after the split stage has stopped the equalizer: a discharge of −N with no equalizer, even when N is 0 (R55). -/
def stoppedSplit (c : Capability) (N : Int) (s : State) : SplitOut :=
  let w := splitAmount N.natAbs (shareA s false) c.dA c.dBn
  ⟨s, N, w, checkCommand s .A false (commandA (-w.pA) c.volt.a),
    checkCommand s .B false (commandB (-w.pB) c.volt.b c.rh), ⟨chgCeiling s .A, chgCeiling s .B⟩⟩

/-- The split stage (R51 to R61): an equalizing record whose source cell cannot carry it is stopped first (R55). -/
def splitStage (c : Capability) (u : Nat) (s : State) : SplitOut :=
  let N := netPower c s u
  let e := equalizerDraw s
  if e = 0 then plainSplit c N s
  else
    let d := ((recordOf s 0).bind fun r => r.dir).getD .aToB
    if sourceCap c d < e then stoppedSplit c N (freeSlot 0 s) else transferSplit c N e d s

/-! ### Stage 6: publishing (R48) -/

/-- What the pass publishes of the equalizing record (R48). -/
def publishedEqualizer (s : State) : Option (RecState × Option Dir) := (recordOf s 0).map fun r => (r.st, r.dir)

/-- The figures a pass publishes (R48). -/
def publishedOf (c : Capability) (u : Nat) (shed grants : Nat) (o : SplitOut) : Published where
  S := c.S
  dA := c.dA
  dB := c.dB
  lossMax := c.lossMax
  dBn := c.dBn
  T := c.T
  fold := o.st.budget.fold
  rh := c.rh
  M := o.st.lim.margin
  H := o.st.lim.admitHyst
  U := u
  L := grantedSum o.st
  shed := shed
  granted := grants
  N := o.N
  pA := o.split.pA
  pB := o.split.pB
  r := o.split.r
  eq := publishedEqualizer o.st
  disLim := c.disLim
  chgCeil := o.chgCeil

/-- The publishing stage: the figures replace those of the last pass, the commands are handed on, the sequence advances, the mark is
cleared, the request delay stops and the pass timer starts again (R28, R48). -/
def publishStage (c : Capability) (u shed grants : Nat) (o : SplitOut) : State :=
  { o.st with
    budget :=
      { o.st.budget with
        mark := false
        delay := none
        passTimer := Config.passPeriod
        seq := o.st.budget.seq + 1
        pub := publishedOf c u shed grants o
        cmd := ⟨o.cmdA, o.cmdB⟩
        inputCmd := inputCommand c.S c.ie o.N o.split.r } }

/-- A budget pass (R32): the droop step of the active port, then the six stages in order. -/
def budgetPass (s : State) : State :=
  let s0 := droopStep s
  let c := capability s0
  let u := s0.load.U
  let w := shedStage (shedLevel c s0.lim) u (equalizerStage u s0)
  let a := admitStage (admitLevel c s0.lim) u w.st
  publishStage c u w.n a.n (splitStage c u a.st)

/-- The pass timer has run out (R28). Every pass starts it again, so that one pass takes place where it and the request delay run out
together. -/
def passTimerExpiry (s : State) : State := if s.budget.passTimer = 0 then budgetPass s else s

/-- The request delay has run out (R28). -/
def requestDelayExpiry (s : State) : State := if s.budget.delay = some 0 then budgetPass s else s

/-! ### Fold state (R37) -/

/-- The level of the FOLD line that a fold state shows: high for FOLDED. -/
def Fold.high : Fold → Bool
  | .folded => true
  | .opened => false

/-- The fold state a level of the line shows. -/
def foldOfLevel (high : Bool) : Fold := if high then .folded else .opened

/-- A change of the FOLD line's level starts or restarts the 50 ms wait, or stops it when the line returns to the fold state's level
(R37). -/
def foldLevelChange (high : Bool) (s : State) : State :=
  if high = s.budget.foldHigh then s
  else
    { s with
      budget :=
        { s.budget with
          foldHigh := high
          foldWait := if high = s.budget.fold.high then none else some Config.foldSettle } }

/-- The 50 ms have run out: the fold state takes the line's level, and a change requests a pass (R37). -/
def foldSettleExpiry (s : State) : State :=
  if s.budget.foldWait = some 0 then
    requestPassIf (foldOfLevel s.budget.foldHigh != s.budget.fold)
      { s with budget := { s.budget with fold := foldOfLevel s.budget.foldHigh, foldWait := none } }
  else s

/-! ### READ_BUDGET (R50, R174) -/

/-- The equalizer code of the budget answer (R174). -/
def equalizerCode : Option (RecState × Option Dir) → Nat
  | none => 0
  | some (.pending, _) => 1
  | some (.granted, _) => 2
  | some (.waiting _, _) => 3
  | some (.ended _, _) => 0

/-- The two's complement bits of a signed field of the budget answer (R170). -/
def signedField (w : Nat) (v : Int) : Nat × Nat := (w, (v % (2 : Int) ^ w).toNat)

/-- The fields of the budget answer, with the eleven zero bits that follow them (R174). The two column pairs of the table are read one
after the other, the left one first (DESIGN CHOICE, log 32). Where there is no input command its 13 bits
are sent as 0, as is the transfer direction where no equalizing record is published (DESIGN CHOICE, log 28). -/
def budgetFields (s : State) : List (Nat × Nat) :=
  let b := s.budget
  let p := b.pub
  [(16, p.S), (15, p.dA), (15, p.dB), (13, p.lossMax), (13, p.M), (11, p.H), (16, p.U), (17, p.L), (17, grantedSum s),
    (1, (decide (p.N < 0)).toNat), (16, p.N.natAbs), (15, p.pA), (15, p.pB), signedField 14 b.cmd.a,
    signedField 14 b.cmd.b, (1, b.inputCmd.isSome.toNat), (13, b.inputCmd.getD 0), (8, p.rh),
    (1, (decide (p.fold = .opened)).toNat), (1, b.mark.toNat), (2, equalizerCode p.eq),
    (1, (decide (p.eq.bind (fun e => e.2) = some .bToA)).toNat), (5, p.shed), (5, p.granted), (11, 0)]

/-- READ_BUDGET (R50). -/
def readBudgetCmd (args : List Byte) (s : State) : Result :=
  match args with
  | [] => ⟨s, .done, packed (budgetFields s)⟩
  | _ :: _ => refuse s .badArg

end Sys2Proof.Machine
end

