-- ==== Sys2Proof/Machine/Reset.lean ====
section
/-! DEFINITION. The two resets (R27, R31, R88, R104, R114, R117, R129, R145, R153, R154, R169). -/

namespace Sys2Proof.Machine

/-- A power-on reset: every block takes its power-on reset values (R31 and the reset section of each chapter). The queue of waiting
commands is not the block's, and the levels of LSEL and FOLD are the outside's; they stay (DESIGN CHOICE, log 16). -/
def powerOnReset (s : State) : State :=
  { State.reset with
    pending := s.pending
    link := { Link.reset with lselHigh := s.link.lselHigh }
    budget := { Budget.reset with foldHigh := s.budget.foldHigh } }

/-- Step 1 of a control reset: any frame in progress is discarded; the receiver is IDLE and LDO holds nothing (R154, R155). -/
def discardFrame (s : State) : State :=
  { s with link := { s.link with rx := .idle, frameTimer := none, ldo := none, silence := none } }

/-- Step 2: every item returns to its default and the limits lock is cleared (R154). The silence timer starts anew, which with
SILENCE_LIMIT at its default of 0 leaves it off (R159). -/
def resetLimits (s : State) : State := { s with lim := Limits.default, locked := false }

/-- The condition unit's reset step (R169). -/
def resetConditions (s : State) : State := { s with cond := CondUnit.reset }

/-- The reservation table's reset step (R27). -/
def resetTable (s : State) : State := { s with resv := Table.reset }

/-- The cell records' reset step: a count is rescaled where its capacity changes to the default (R80, R88). -/
def resetCells (old : PerCell Nat) (s : State) : State := rescale .B (old.get .B) (rescale .A (old.get .A) s)

/-- Step 3: every block's reset step, the condition unit's first (R154, R169). The hinge link controller and the arbiter keep their
state (R129, R153), as do the budget unit's figures, commands, sequence and fold state (R31); the ports are re-evaluated (R145). A port
that was REJECTED(NO_COMMON) and is again without a result there latches CONTRACT_REJECTED anew (DESIGN CHOICE, log 31). -/
def resetBlocks (old : PerCell Nat) (s : State) : State :=
  reevaluateBoth (resetLoad (resetBranch .B (resetBranch .A (resetCharge .B (resetCharge .A
    (resetCells old (resetTable (resetConditions s))))))))

/-- A control reset (R154): the frame in progress is discarded, the limits return to their defaults, every block takes its reset
step, a pass is requested, and FIRST_FRAME is placed in the answer buffer. Every timer that no block's reset step names goes on
(DEDUCED, log 17). -/
def controlReset (s : State) : State :=
  placeAnswer .firstFrame [] (requestPass (resetBlocks s.lim.cap (resetLimits (discardFrame s))))

end Sys2Proof.Machine
end

