-- ==== Sys2Proof/Machine/Link.lean ====
section
/-! DEFINITION. The control link port: frames, answers, the silence timer, and the commands that belong to the link, the limit set
and the condition unit (chapters 10 to 12). -/

namespace Sys2Proof.Machine

/-! ### Limit set (R160 to R163) -/

/-- The readers of an item that act within the limit set's event (R162): profile, ceilings and DEFAULT_I re-evaluate the ports,
a capacity rescales its count, and CABLE_PREFERRED goes to the arbiter. `old` is the limit set before the write. -/
def handOffLimit (a : LimitAddr) (old : Limits) (s : State) : State :=
  match a with
  | .profile _ => reevaluateBoth s
  | .item (.ceil _) => reevaluateBoth s
  | .item .defaultI => reevaluateBoth s
  | .item (.cap x) => rescale x (old.cap.get x) s
  | .item .cablePreferred => preferenceChange s
  | .item _ => s
  | .edge _ => s
  | .derate _ _ => s
  | .rest _ => s

/-- A write that changes a stored value is handed on and requests a pass; one that stores the value held hands nothing on (R162). -/
def applyWrite (a : LimitAddr) (l : Limits) (s : State) : State :=
  if l = s.lim then s else handOffLimit a s.lim (requestPass { s with lim := l })

/-- SET_LIMIT (R160, R162). -/
def setLimitCmd (args : List Byte) (s : State) : Result :=
  match setLimitArgs args with
  | none => refuse s .badArg
  | some (a, w) =>
    if a.lockable && s.locked then refuse s .locked
    else
      ⟨applyWrite a (writeLimit s.lim a w).1 s, if (writeLimit s.lim a w).2 then .doneClamped else .done, []⟩

/-- The flags byte of a GET_LIMIT answer: lockable in bit 1, the lock in bit 0 (R172). Bits 7..2, which no layout names, are sent as 0
(DESIGN CHOICE, log 28). -/
def limitFlags (a : LimitAddr) (locked : Bool) : Byte := BitVec.ofNat 8 (a.lockable.toNat * 2 + locked.toNat)

/-- GET_LIMIT (R163). -/
def getLimitCmd (args : List Byte) (s : State) : Result :=
  match getLimitArgs args with
  | none => refuse s .badArg
  | some a => ⟨s, .done, limitReport s.lim a ++ [limitFlags a s.locked]⟩

/-- LOCK_LIMITS (R161). -/
def lockLimitsCmd (args : List Byte) (s : State) : Result :=
  match args with
  | [] => doneWith { s with locked := true }
  | _ :: _ => refuse s .badArg

/-! ### Condition unit (R166 to R168) -/

/-- The enables byte: master enable in bit 1, record attention in bit 0 (R172). Bits 7..2, which no layout names, are sent as 0 (DESIGN
CHOICE, log 28). -/
def enablesByte (u : CondUnit) : Byte := BitVec.ofNat 8 (u.master.toNat * 2 + u.recordAttn.toNat)

/-- The READ_CONDITIONS payload (R166, R172). -/
def conditionsBytes (u : CondUnit) : List Byte :=
  bytesOf 4 u.latched.toNat ++ bytesOf 4 u.masks.toNat ++ [enablesByte u, summaries u]

/-- READ_CONDITIONS (R166): every flag reported is cleared. -/
def readConditionsCmd (args : List Byte) (s : State) : Result :=
  match args with
  | [] => ⟨{ s with cond := { s.cond with latched := 0 } }, .done, conditionsBytes s.cond⟩
  | _ :: _ => refuse s .badArg

/-- SET_MASKS (R167). -/
def setMasksCmd (args : List Byte) (s : State) : Result :=
  match setMasksArgs args with
  | none => refuse s .badArg
  | some (m, master, rec) =>
    doneWith { s with cond := { s.cond with masks := m, master := master, recordAttn := rec } }

/-- The counters in the order of their table, one byte each (R172). -/
def counterBytes (c : Counters) : List Byte :=
  [c.frameCheck, c.framesShort, c.framesTimeout, c.farNoReply, c.farBadReply, c.farCollision, c.recordsShed,
    c.overdraws].map (BitVec.ofNat 8)

/-- READ_COUNTERS (R168): every counter reported is set to 0. -/
def readCountersCmd (args : List Byte) (s : State) : Result :=
  match args with
  | [] => ⟨{ s with cond := { s.cond with cnt := Counters.zero } }, .done, counterBytes s.cond.cnt⟩
  | _ :: _ => refuse s .badArg

/-! ### Running a command (R157 to R159) -/

/-- NOP (R157). -/
def nopCmd (args : List Byte) (s : State) : Result :=
  match args with
  | [] => doneWith s
  | _ :: _ => refuse s .badArg

/-- A code that names no command changes nothing (R157). -/
def unknownCmd (_args : List Byte) (s : State) : Result := refuse s .unknownCommand

/-- The silence timer restarts at every well-formed frame: it runs for SILENCE_LIMIT seconds, and not at all at 0 (R159). -/
def restartSilence (s : State) : State :=
  { s with link := { s.link with silence := restarted s.lim.silenceLimit 1000 } }

/-- A command is carried out: its effect, then its answer assembled and placed, and the silence timer restarted (R157, R158). -/
def runCommand (cmd : List Byte → State → Result) (args : List Byte) (s : State) : State :=
  restartSilence (placeAnswer (cmd args s).out (cmd args s).payload (cmd args s).st)

/-- RESET: with no argument a control reset, whose FIRST_FRAME is the answer (R157). -/
def runReset (args : List Byte) (s : State) : State :=
  match args with
  | [] => restartSilence (controlReset s)
  | _ :: _ => restartSilence (placeAnswer .badArg [] s)

/-! ### Frames (R155, R156) -/

/-- The counter of an erred frame (R156). -/
def Outc.frameCounter : Outc → CounterId
  | .frameShort => .framesShort
  | .frameTimeout => .framesTimeout
  | _ => .frameCheck

/-- An erred frame: its outcome is placed, FRAME_ERROR is latched and the frame counted; the silence timer does not restart (R156).
The status byte is assembled with the answer, before FRAME_ERROR is latched (DEDUCED, log 13). -/
def erredFrame (out : Outc) (s : State) : State := count out.frameCounter (latch .frameError (placeAnswer out [] s))

/-- What the checks of a frame give (R156): an erred outcome, or the command code and arguments of a well-formed frame. -/
inductive FrameCheck where
  | erred (out : Outc)
  | wellFormed (code : Byte) (args : List Byte)
  deriving DecidableEq, Repr

/-- The checks of a frame's whole bytes, in the order of R156. Bytes after byte n + 3 are ignored. -/
def checkFrame (bs : List Byte) : FrameCheck :=
  match bs with
  | code :: n :: rest =>
    if 32 < n.toNat then .erred .frameBadLength
    else if rest.length < n.toNat + 1 then .erred .frameShort
    else if rest[n.toNat]? = some (crc8 (code :: n :: rest.take n.toNat)) then .wellFormed code (rest.take n.toNat)
    else .erred .frameBadCheck
  | _ => .erred .frameShort

/-- The frame of a command: code, argument length, arguments and CRC-8 (R171). -/
def frameOf (code : Byte) (args : List Byte) : List Byte :=
  let body := code :: BitVec.ofNat 8 args.length :: args
  body ++ [crc8 body]

/-- The command of a well-formed frame is carried out (R157, R172). -/
def runCode (code : Byte) (args : List Byte) (s : State) : State :=
  match code.toNat with
  | 0x00 => runCommand nopCmd args s
  | 0x10 => runCommand reserveCmd args s
  | 0x11 => runCommand adjustCmd args s
  | 0x12 => runCommand renewCmd args s
  | 0x13 => runCommand releaseCmd args s
  | 0x14 => runCommand queryCmd args s
  | 0x15 => runCommand collectCmd args s
  | 0x20 => runCommand readBudgetCmd args s
  | 0x21 => runCommand readCellCmd args s
  | 0x22 => runCommand readInputCmd args s
  | 0x30 => runCommand offersCmd args s
  | 0x31 => runCommand appliedCmd args s
  | 0x32 => runCommand isolateCmd args s
  | 0x38 => runCommand isolateCellCmd args s
  | 0x39 => runCommand clearFaultCmd args s
  | 0x40 => runCommand setLimitCmd args s
  | 0x41 => runCommand getLimitCmd args s
  | 0x42 => runCommand lockLimitsCmd args s
  | 0x50 => runCommand readConditionsCmd args s
  | 0x51 => runCommand setMasksCmd args s
  | 0x52 => runCommand readCountersCmd args s
  | 0x7F => runReset args s
  | _ => runCommand unknownCmd args s

/-- A frame's whole bytes are taken and checked (R156), and the command of a well-formed one is carried out (R157). -/
def takeFrame (bs : List Byte) (s : State) : State :=
  match checkFrame bs with
  | .erred out => erredFrame out s
  | .wellFormed code args => runCode code args s

/-- A fall of LSEL in IDLE begins a frame: the frame timer starts at 10 ms and the answer held moves to LDO (R155, R158). -/
def beginFrame (s : State) : State :=
  { s with
    link :=
      { s.link with
        rx := .receiving
        frameTimer := some Config.frameLimit
        ldo := s.link.buffer
        buffer := none } }

/-- A fall of LSEL. While RSTN is low after its control reset the port ignores LSEL (R154); a line that is low already does not
fall. -/
def lselFall (s : State) : State :=
  if s.link.lselHigh then
    let s1 := { s with link := { s.link with lselHigh := false } }
    if s.link.rstnLow then s1
    else
      match s.link.rx with
      | .idle => beginFrame s1
      | .receiving => s1
      | .discarding => s1
  else s

/-- The receiver returns to IDLE with the frame timer stopped (R155). -/
def endFrame (s : State) : State := { s with link := { s.link with rx := .idle, frameTimer := none } }

/-- A rise of LSEL, with what is done with the frame it ends in RECEIVING. In DISCARDING it only ends the discarding; in IDLE, as
after RSTN has risen with LSEL low, nothing is taken (R154, R155). -/
def lselRiseWith (take : State → State) (s : State) : State :=
  if s.link.lselHigh then s
  else
    let s1 := { s with link := { s.link with lselHigh := true } }
    if s.link.rstnLow then s1
    else
      match s.link.rx with
      | .idle => s1
      | .receiving => take (endFrame s1)
      | .discarding => endFrame s1

/-- A rise of LSEL after `bits` were taken from LDI (R155). The row carries the bits of its frame, since LCLK has no row (DESIGN
CHOICE, log 10). -/
def lselRise (bits : List Bool) (s : State) : State := lselRiseWith (takeFrame (wholeBytes bits)) s

/-- A frame that carries a command with its arguments: LSEL falls, if it is high, and rises at the frame's end. The host can send at
most 32 argument bytes; a longer list makes the frame FRAME_BAD_LENGTH (R156, R172; DESIGN CHOICE, log 10). -/
def commandFrame (run : List Byte → State → State) (args : List Byte) (s : State) : State :=
  lselRiseWith (if args.length ≤ 32 then run args else erredFrame .frameBadLength) (lselFall s)

/-- The frame timer has run out in RECEIVING: the frame is erred FRAME_TIMEOUT and the rest of it is discarded (R155). -/
def frameTimeout (s : State) : State :=
  if s.link.rx = .receiving ∧ s.link.frameTimer = some 0 then
    erredFrame .frameTimeout { s with link := { s.link with rx := .discarding, frameTimer := none } }
  else s

/-- The silence timer has run out: silence release, and the timer stops. After a frame that restarted it no release happens (R159). -/
def silenceExpiry (s : State) : State :=
  if s.link.silence = some 0 then silenceRelease { s with link := { s.link with silence := none } } else s

/-! ### Lines (R154, R158) -/

/-- RSTN has been held low for 10 µs: a control reset, once for each low period (R154; log 11). -/
def rstnFall (s : State) : State :=
  if s.link.rstnLow then s
  else controlReset { s with link := { s.link with rstnLow := true } }

/-- RSTN rises: the port takes frames again, from a fresh fall of LSEL (R154). -/
def rstnRise (s : State) : State := { s with link := { s.link with rstnLow := false } }

/-- The bytes in which an answer is shifted out on LDO, zeros following (R158, R171). -/
def answerBytes (a : Answer) : List Byte :=
  let body := a.status :: a.out.code :: BitVec.ofNat 8 a.payload.length :: a.payload
  body ++ [crc8 body]

/-- The level of LDO at clock `k` of a frame, counted from 0 (R158, R171): the bits of the answer moved there, most significant bit
of each byte first, then zeros for as long as the host clocks; low with no answer, and while RSTN is low (R154). -/
def ldoBit (s : State) (k : Nat) : Bool :=
  match s.link.ldo with
  | some a => !s.link.rstnLow && ((bitsOfBytes (answerBytes a))[k]?).getD false
  | none => false

end Sys2Proof.Machine
end

