-- ==== Sys2Proof/Machine/Commands.lean ====
section
/-! DEFINITION. The meanings of the rows that reach the block from outside over the control link: the two resets, the lines of
the link, and the 22 host commands. A host command's row is a whole frame: LSEL falls if it is high, the well-formed frame of
that command is clocked in, and LSEL rises (R155 to R157). -/

namespace Sys2Proof.Machine

/-- POWER_ON_RESET (R31 and the reset section of each chapter). -/
def execPowerOnReset (s : State) : Host.Outcome State Fault Refusal := .next (powerOnReset s)

/-- RSTN_LOW (R154). -/
def execRstnLow (s : State) : Host.Outcome State Fault Refusal := .next (rstnFall s)

/-- RSTN_RISE (R154). -/
def execRstnRise (s : State) : Host.Outcome State Fault Refusal := .next (rstnRise s)

/-- LSEL_FALL (R155, R158). -/
def execLselFall (s : State) : Host.Outcome State Fault Refusal := .next (lselFall s)

/-- LSEL_RISE (R155, R156). -/
def execLselRise (bits : List Bool) (s : State) : Host.Outcome State Fault Refusal := .next (lselRise bits s)

/-- FRAME_TIMER_EXPIRY (R155). -/
def execFrameTimerExpiry (s : State) : Host.Outcome State Fault Refusal := .next (frameTimeout s)

/-- SILENCE_TIMER_EXPIRY (R24, R159). -/
def execSilenceTimerExpiry (s : State) : Host.Outcome State Fault Refusal := .next (silenceExpiry s)

/-- NOP (R157). -/
def execNop (args : List Byte) (s : State) : Host.Outcome State Fault Refusal :=
  .next (commandFrame (runCommand nopCmd) args s)

/-- RESET (R154, R157). -/
def execReset (args : List Byte) (s : State) : Host.Outcome State Fault Refusal :=
  .next (commandFrame runReset args s)

/-- RESERVE (R1, R6, R7). -/
def execReserve (args : List Byte) (s : State) : Host.Outcome State Fault Refusal :=
  .next (commandFrame (runCommand reserveCmd) args s)

/-- ADJUST (R5, R8, R9). -/
def execAdjust (args : List Byte) (s : State) : Host.Outcome State Fault Refusal :=
  .next (commandFrame (runCommand adjustCmd) args s)

/-- RENEW (R5, R10). -/
def execRenew (args : List Byte) (s : State) : Host.Outcome State Fault Refusal :=
  .next (commandFrame (runCommand renewCmd) args s)

/-- RELEASE (R5, R11). -/
def execRelease (args : List Byte) (s : State) : Host.Outcome State Fault Refusal :=
  .next (commandFrame (runCommand releaseCmd) args s)

/-- QUERY (R12). -/
def execQuery (args : List Byte) (s : State) : Host.Outcome State Fault Refusal :=
  .next (commandFrame (runCommand queryCmd) args s)

/-- COLLECT (R13). -/
def execCollect (args : List Byte) (s : State) : Host.Outcome State Fault Refusal :=
  .next (commandFrame (runCommand collectCmd) args s)

/-- READ_BUDGET (R50). -/
def execReadBudget (args : List Byte) (s : State) : Host.Outcome State Fault Refusal :=
  .next (commandFrame (runCommand readBudgetCmd) args s)

/-- READ_CELL (R87). -/
def execReadCell (args : List Byte) (s : State) : Host.Outcome State Fault Refusal :=
  .next (commandFrame (runCommand readCellCmd) args s)

/-- READ_INPUT (R144). -/
def execReadInput (args : List Byte) (s : State) : Host.Outcome State Fault Refusal :=
  .next (commandFrame (runCommand readInputCmd) args s)

/-- OFFERS (R134, R137). -/
def execOffers (args : List Byte) (s : State) : Host.Outcome State Fault Refusal :=
  .next (commandFrame (runCommand offersCmd) args s)

/-- APPLIED (R138). -/
def execApplied (args : List Byte) (s : State) : Host.Outcome State Fault Refusal :=
  .next (commandFrame (runCommand appliedCmd) args s)

/-- ISOLATE (R143). -/
def execIsolate (args : List Byte) (s : State) : Host.Outcome State Fault Refusal :=
  .next (commandFrame (runCommand isolateCmd) args s)

/-- ISOLATE_CELL (R112). -/
def execIsolateCell (args : List Byte) (s : State) : Host.Outcome State Fault Refusal :=
  .next (commandFrame (runCommand isolateCellCmd) args s)

/-- CLEAR_FAULT (R113). -/
def execClearFault (args : List Byte) (s : State) : Host.Outcome State Fault Refusal :=
  .next (commandFrame (runCommand clearFaultCmd) args s)

/-- SET_LIMIT (R160, R162). -/
def execSetLimit (args : List Byte) (s : State) : Host.Outcome State Fault Refusal :=
  .next (commandFrame (runCommand setLimitCmd) args s)

/-- GET_LIMIT (R163). -/
def execGetLimit (args : List Byte) (s : State) : Host.Outcome State Fault Refusal :=
  .next (commandFrame (runCommand getLimitCmd) args s)

/-- LOCK_LIMITS (R161). -/
def execLockLimits (args : List Byte) (s : State) : Host.Outcome State Fault Refusal :=
  .next (commandFrame (runCommand lockLimitsCmd) args s)

/-- READ_CONDITIONS (R166). -/
def execReadConditions (args : List Byte) (s : State) : Host.Outcome State Fault Refusal :=
  .next (commandFrame (runCommand readConditionsCmd) args s)

/-- SET_MASKS (R167). -/
def execSetMasks (args : List Byte) (s : State) : Host.Outcome State Fault Refusal :=
  .next (commandFrame (runCommand setMasksCmd) args s)

/-- READ_COUNTERS (R168). -/
def execReadCounters (args : List Byte) (s : State) : Host.Outcome State Fault Refusal :=
  .next (commandFrame (runCommand readCountersCmd) args s)

end Sys2Proof.Machine
end

