-- ==== Sys2Proof/Machine/Events.lean ====
section
/-! DEFINITION. The meanings of the rows that are the blocks' own events: record timers, passes, the fold line, cell samples
and runs, the system load, the hinge sense line, the input ports, the arbiter and the die monitor. The row of an expiry
is taken where its timer has run out, that of a run's end where its run is counted, and either changes nothing elsewhere (DESIGN
CHOICE, log 4). The readings of a sample are the row's operands, and its slot is not timed (DESIGN CHOICE, log 19). -/

namespace Sys2Proof.Machine

/-! ### Reservation controller (1.6) -/

/-- LIFETIME_EXPIRY (R19, R23). -/
def execLifetimeExpiry (k : Fin 24) (s : State) : Host.Outcome State Fault Refusal := .next (lifetimeExpiry k s)

/-- BURST_EXPIRY (R20, R23). -/
def execBurstExpiry (k : Fin 24) (s : State) : Host.Outcome State Fault Refusal := .next (burstExpiry k s)

/-- BURST_TOTAL_EXPIRY (R21, R23). -/
def execBurstTotalExpiry (k : Fin 24) (s : State) : Host.Outcome State Fault Refusal := .next (burstTotalExpiry k s)

/-- WAIT_LIMIT_EXPIRY (R22, R23). -/
def execWaitLimitExpiry (k : Fin 24) (s : State) : Host.Outcome State Fault Refusal := .next (waitLimitExpiry k s)

/-! ### Budget unit (2) -/

/-- PASS_TIMER_EXPIRY (R28, R32). -/
def execPassTimerExpiry (s : State) : Host.Outcome State Fault Refusal := .next (passTimerExpiry s)

/-- REQUEST_DELAY_EXPIRY (R28, R32). -/
def execRequestDelayExpiry (s : State) : Host.Outcome State Fault Refusal := .next (requestDelayExpiry s)

/-- FOLD_LEVEL_CHANGE (R37). -/
def execFoldLevelChange (high : Bool) (s : State) : Host.Outcome State Fault Refusal := .next (foldLevelChange high s)

/-- FOLD_SETTLE_EXPIRY (R37). -/
def execFoldSettleExpiry (s : State) : Host.Outcome State Fault Refusal := .next (foldSettleExpiry s)

/-! ### Cells (4 to 6) -/

/-- CELL_A_SAMPLE (R71). -/
def execCellASample (v i t : Int) (order : SlotOrder) (s : State) : Host.Outcome State Fault Refusal :=
  .next (cellASample v i t order s)

/-- CELL_OVERVOLTAGE_RUN (R91). -/
def execCellOvervoltageRun (x : Cell) (s : State) : Host.Outcome State Fault Refusal := .next (overvoltageRun x s)

/-- TERMINATION_RUN (R95). -/
def execTerminationRun (x : Cell) (s : State) : Host.Outcome State Fault Refusal := .next (terminationRun x s)

/-- PRECHARGE_TIMER_EXPIRY (R99). -/
def execPrechargeTimerExpiry (x : Cell) (s : State) : Host.Outcome State Fault Refusal := .next (prechargeExpiry x s)

/-- FAST_TIMER_EXPIRY (R99). -/
def execFastTimerExpiry (x : Cell) (s : State) : Host.Outcome State Fault Refusal := .next (fastExpiry x s)

/-- DISCHARGE_OVERCURRENT_RUN (R108). -/
def execDischargeOvercurrentRun (x : Cell) (s : State) : Host.Outcome State Fault Refusal := .next (dischargeRun x s)

/-- CHARGE_OVERCURRENT_RUN (R109). -/
def execChargeOvercurrentRun (x : Cell) (s : State) : Host.Outcome State Fault Refusal := .next (chargeRun x s)

/-- CUTOFF_RUN (R111). -/
def execCutoffRun (x : Cell) (s : State) : Host.Outcome State Fault Refusal := .next (cutoffRun x s)

/-! ### System load monitor (6.6) -/

/-- SYSTEM_LOAD_SAMPLE (R115, R116). -/
def execSystemLoadSample (pm : Int) (s : State) : Host.Outcome State Fault Refusal := .next (loadSample pm s)

/-- OVERDRAW_ON (R115). -/
def execOverdrawOn (s : State) : Host.Outcome State Fault Refusal := .next (overdrawOnRun s)

/-- OVERDRAW_OFF (R116). -/
def execOverdrawOff (s : State) : Host.Outcome State Fault Refusal := .next (overdrawOffRun s)

/-! ### Hinge link controller (7) -/

/-- HINGE_SLOT (R118). -/
def execHingeSlot (hslLow : Bool) (s : State) : Host.Outcome State Fault Refusal := .next (hingeSlot hslLow s)

/-- POLL_COLLISION (R118). -/
def execPollCollision (s : State) : Host.Outcome State Fault Refusal := .next (pollCollision s)

/-- POLL_COMPLETE (R118). -/
def execPollComplete (s : State) : Host.Outcome State Fault Refusal := .next (pollComplete s)

/-- REPLY_WINDOW_EXPIRY (R119). -/
def execReplyWindowExpiry (begun : Bool) (s : State) : Host.Outcome State Fault Refusal := .next (replyWindowExpiry begun s)

/-- BAD_REPLY_FRAMING (R119). -/
def execBadReplyFraming (cause : FramingCause) (s : State) : Host.Outcome State Fault Refusal := .next (replyRise cause s)

/-- SAMPLE (R120). -/
def execSample (line : List Bool) (order : SlotOrder) (s : State) : Host.Outcome State Fault Refusal :=
  .next (sampleRead line order s)

/-- FAR_BREAK (R121). -/
def execFarBreak (s : State) : Host.Outcome State Fault Refusal := .next (farBreak s)

/-- HSL_BREAK_END (R121). -/
def execHslBreakEnd (s : State) : Host.Outcome State Fault Refusal := .next (breakEnd s)

/-- FAILURE_RUN (R123). -/
def execFailureRun (s : State) : Host.Outcome State Fault Refusal := .next (failureRun s)

/-- GOOD_RUN (R125). -/
def execGoodRun (order : SlotOrder) (s : State) : Host.Outcome State Fault Refusal := .next (goodRun order s)

/-- DEGRADED_TIMER_EXPIRY (R124). -/
def execDegradedTimerExpiry (s : State) : Host.Outcome State Fault Refusal := .next (degradedExpiry s)

/-! ### Input ports, arbiter and die monitor (8, 9) -/

/-- INPUT_SAMPLE (R130, R131, R138, R151). -/
def execInputSample (p : PortId) (vin : Int) (s : State) : Host.Outcome State Fault Refusal := .next (inputSample p vin s)

/-- ATTACH_RUN (R130). -/
def execAttachRun (p : PortId) (s : State) : Host.Outcome State Fault Refusal := .next (attachRun p s)

/-- DETACH_RUN (R131). -/
def execDetachRun (p : PortId) (s : State) : Host.Outcome State Fault Refusal := .next (detachRun p s)

/-- INPUT_OVERVOLTAGE_RUN (R151). -/
def execInputOvervoltageRun (p : PortId) (s : State) : Host.Outcome State Fault Refusal := .next (inputOvervoltageRun p s)

/-- OFFER_WINDOW_EXPIRY (R136). -/
def execOfferWindowExpiry (p : PortId) (s : State) : Host.Outcome State Fault Refusal := .next (offerWindowExpiry p s)

/-- CONFIRM_TIMER_EXPIRY (R138). -/
def execConfirmTimerExpiry (p : PortId) (s : State) : Host.Outcome State Fault Refusal := .next (confirmExpiry p s)

/-- VERIFY_WINDOW_EXPIRY (R138). -/
def execVerifyWindowExpiry (p : PortId) (s : State) : Host.Outcome State Fault Refusal := .next (verifyExpiry p s)

/-- BREAK_TIMER_EXPIRY (R149). -/
def execBreakTimerExpiry (s : State) : Host.Outcome State Fault Refusal := .next (breakExpiry s)

/-- DIE_SAMPLE (R152). -/
def execDieSample (t : Int) (s : State) : Host.Outcome State Fault Refusal := .next (dieSample t s)

end Sys2Proof.Machine
end

