-- ==== Sys2Proof/Machine/Dispatch.lean ====
section
/-! DEFINITION. The one dispatch: each row of spec/opcode_table.json is one direct call of its meaning. -/

namespace Sys2Proof.Machine

def exec (i : Instr) (s : State) : Host.Outcome State Fault Refusal :=
  match i with
  | .powerOnReset => Sys2Proof.Machine.execPowerOnReset s
  | .rstnLow => Sys2Proof.Machine.execRstnLow s
  | .lselFall => Sys2Proof.Machine.execLselFall s
  | .lselRise bits => Sys2Proof.Machine.execLselRise bits s
  | .frameTimerExpiry => Sys2Proof.Machine.execFrameTimerExpiry s
  | .nop args => Sys2Proof.Machine.execNop args s
  | .reset args => Sys2Proof.Machine.execReset args s
  | .reserve args => Sys2Proof.Machine.execReserve args s
  | .adjust args => Sys2Proof.Machine.execAdjust args s
  | .renew args => Sys2Proof.Machine.execRenew args s
  | .release args => Sys2Proof.Machine.execRelease args s
  | .query args => Sys2Proof.Machine.execQuery args s
  | .collect args => Sys2Proof.Machine.execCollect args s
  | .readBudget args => Sys2Proof.Machine.execReadBudget args s
  | .readCell args => Sys2Proof.Machine.execReadCell args s
  | .readInput args => Sys2Proof.Machine.execReadInput args s
  | .offers args => Sys2Proof.Machine.execOffers args s
  | .applied args => Sys2Proof.Machine.execApplied args s
  | .isolate args => Sys2Proof.Machine.execIsolate args s
  | .isolateCell args => Sys2Proof.Machine.execIsolateCell args s
  | .clearFault args => Sys2Proof.Machine.execClearFault args s
  | .setLimit args => Sys2Proof.Machine.execSetLimit args s
  | .getLimit args => Sys2Proof.Machine.execGetLimit args s
  | .lockLimits args => Sys2Proof.Machine.execLockLimits args s
  | .readConditions args => Sys2Proof.Machine.execReadConditions args s
  | .setMasks args => Sys2Proof.Machine.execSetMasks args s
  | .readCounters args => Sys2Proof.Machine.execReadCounters args s
  | .silenceTimerExpiry => Sys2Proof.Machine.execSilenceTimerExpiry s
  | .lifetimeExpiry slot => Sys2Proof.Machine.execLifetimeExpiry slot s
  | .burstExpiry slot => Sys2Proof.Machine.execBurstExpiry slot s
  | .burstTotalExpiry slot => Sys2Proof.Machine.execBurstTotalExpiry slot s
  | .waitLimitExpiry slot => Sys2Proof.Machine.execWaitLimitExpiry slot s
  | .passTimerExpiry => Sys2Proof.Machine.execPassTimerExpiry s
  | .requestDelayExpiry => Sys2Proof.Machine.execRequestDelayExpiry s
  | .foldLevelChange high => Sys2Proof.Machine.execFoldLevelChange high s
  | .foldSettleExpiry => Sys2Proof.Machine.execFoldSettleExpiry s
  | .cellASample v cur t order => Sys2Proof.Machine.execCellASample v cur t order s
  | .cellOvervoltageRun x => Sys2Proof.Machine.execCellOvervoltageRun x s
  | .terminationRun x => Sys2Proof.Machine.execTerminationRun x s
  | .prechargeTimerExpiry x => Sys2Proof.Machine.execPrechargeTimerExpiry x s
  | .fastTimerExpiry x => Sys2Proof.Machine.execFastTimerExpiry x s
  | .dischargeOvercurrentRun x => Sys2Proof.Machine.execDischargeOvercurrentRun x s
  | .chargeOvercurrentRun x => Sys2Proof.Machine.execChargeOvercurrentRun x s
  | .cutoffRun x => Sys2Proof.Machine.execCutoffRun x s
  | .systemLoadSample pm => Sys2Proof.Machine.execSystemLoadSample pm s
  | .overdrawOn => Sys2Proof.Machine.execOverdrawOn s
  | .overdrawOff => Sys2Proof.Machine.execOverdrawOff s
  | .hingeSlot hslLow => Sys2Proof.Machine.execHingeSlot hslLow s
  | .pollCollision => Sys2Proof.Machine.execPollCollision s
  | .pollComplete => Sys2Proof.Machine.execPollComplete s
  | .replyWindowExpiry begun => Sys2Proof.Machine.execReplyWindowExpiry begun s
  | .sample line order => Sys2Proof.Machine.execSample line order s
  | .farBreak => Sys2Proof.Machine.execFarBreak s
  | .hslBreakEnd => Sys2Proof.Machine.execHslBreakEnd s
  | .failureRun => Sys2Proof.Machine.execFailureRun s
  | .goodRun order => Sys2Proof.Machine.execGoodRun order s
  | .degradedTimerExpiry => Sys2Proof.Machine.execDegradedTimerExpiry s
  | .inputSample p vin => Sys2Proof.Machine.execInputSample p vin s
  | .attachRun p => Sys2Proof.Machine.execAttachRun p s
  | .detachRun p => Sys2Proof.Machine.execDetachRun p s
  | .inputOvervoltageRun p => Sys2Proof.Machine.execInputOvervoltageRun p s
  | .offerWindowExpiry p => Sys2Proof.Machine.execOfferWindowExpiry p s
  | .confirmTimerExpiry p => Sys2Proof.Machine.execConfirmTimerExpiry p s
  | .verifyWindowExpiry p => Sys2Proof.Machine.execVerifyWindowExpiry p s
  | .breakTimerExpiry => Sys2Proof.Machine.execBreakTimerExpiry s
  | .dieSample t => Sys2Proof.Machine.execDieSample t s
  | .rstnRise => Sys2Proof.Machine.execRstnRise s
  | .badReplyFraming cause => Sys2Proof.Machine.execBadReplyFraming cause s

end Sys2Proof.Machine
end

