-- ==== Sys2Proof/Machine/Time.lean ====
section
/-! DEFINITION. Time while no command waits (DESIGN CHOICE, log 1): one millisecond passes, and a timer that has run out is
taken as its expiry row, one a step, in the fixed order of `dueEvent`. Each timer runs only in the states in which the spec
has it run. -/

namespace Sys2Proof.Machine

/-! ### One millisecond (R19 to R22, R28, R37, R98, R118, R124, 8.1, R146, R155, R159) -/

/-- A running timer counts down and stays at 0. -/
def downBy (n : Nat) (t : Option Nat) : Option Nat := t.map fun v => v - n

/-- The timers of a record in one millisecond: the lifetime in every live state, the burst while GRANTED, the wait in PENDING
and WAITING (R19 to R22). -/
def Record.tick (r : Record) : Record :=
  match r.st with
  | .granted =>
    { r with
      lifeRem := downBy 1 r.lifeRem
      burstRem := downBy 1 r.burstRem
      burstTot := r.burstTot.map fun n => min Config.burstTotalMax (n + 1) }
  | .pending => { r with lifeRem := downBy 1 r.lifeRem, waitRem := downBy 1 r.waitRem }
  | .waiting _ => { r with lifeRem := downBy 1 r.lifeRem, waitRem := downBy 1 r.waitRem }
  | .ended _ => r

/-- The record timers of the table. -/
def Table.tick (t : Table) : Table :=
  { t with slots := t.slots.map fun sl => { sl with record := sl.record.map Record.tick } }

/-- The pass timer, the request delay and the fold wait (R28, R37). -/
def Budget.tick (b : Budget) : Budget :=
  { b with passTimer := b.passTimer - 1, delay := downBy 1 b.delay, foldWait := downBy 1 b.foldWait }

/-- The session timers in the phases in which each runs (R98). -/
def Charge.tick (c : Charge) : Charge :=
  match c.phase with
  | .precharge => { c with session := c.session.map fun q => { q with pre := q.pre - 1 } }
  | .fast => { c with session := c.session.map fun q => { q with fast := q.fast - 1 } }
  | .taper => { c with session := c.session.map fun q => { q with fast := q.fast - 1 } }
  | .off => c
  | .full => c
  | .hold => c
  | .fault _ => c

/-- The reply window in one millisecond. -/
def Exchange.tick : Exchange → Exchange
  | .ended => .ended
  | .polling sent => .polling sent
  | .window left b => .window (left - 1000) b

/-- The reply window, the break and the degraded timer (R118, R121, R124). -/
def Hinge.tick (h : Hinge) : Hinge :=
  { h with exch := h.exch.tick, brk := downBy 1000 h.brk, degTimer := downBy 1 h.degTimer }

/-- The one timer of a port's state (8.1). -/
def Port.tick (q : Port) : Port := { q with timer := downBy 1 q.timer }

/-- The frame timer and the silence timer (R155, R159). -/
def Link.tick (l : Link) : Link := { l with frameTimer := downBy 1 l.frameTimer, silence := downBy 1 l.silence }

/-- The time to the next sample slots; a slot that has come waits for its sample. -/
def Slots.tick (q : Slots) : Slots :=
  { cellA := q.cellA - 1, hinge := q.hinge - 1, load := q.load - 1, input := ⟨q.input.cable - 1, q.input.coil - 1⟩,
    die := q.die - 1 }

/-- One millisecond passes and nothing else happens. -/
def advance (s : State) : State :=
  { s with
    link := s.link.tick
    resv := s.resv.tick
    budget := s.budget.tick
    chg := ⟨s.chg.a.tick, s.chg.b.tick⟩
    hinge := s.hinge.tick
    port := ⟨s.port.cable.tick, s.port.coil.tick⟩
    arb := { s.arb with brk := downBy 1 s.arb.brk }
    slots := s.slots.tick }

/-! ### The expiry that is due -/

/-- The expiry due for the record of a slot. -/
def dueOfSlot (s : State) (k : Fin 24) : Option Instr :=
  match recordOf s k with
  | none => none
  | some r =>
    if r.lifetimeDue then some (.lifetimeExpiry k)
    else if r.burstTotalDue then some (.burstTotalExpiry k)
    else if r.burstDue then some (.burstExpiry k)
    else if r.waitLimitDue then some (.waitLimitExpiry k)
    else none

/-- The expiry due for a charge session (R98). -/
def dueOfCharge (s : State) (x : Cell) : Option Instr :=
  if (s.chg.get x).prechargeDue then some (.prechargeTimerExpiry x)
  else if (s.chg.get x).fastDue then some (.fastTimerExpiry x)
  else none

/-- The expiry due for the hinge link controller (R118, R121, R124). -/
def dueOfHinge (h : Hinge) : Option Instr :=
  if h.degTimer = some 0 ∧ h.dataState = .stale then some .degradedTimerExpiry
  else
    match h.exch, h.brk with
    | .window 0 b, _ => some (.replyWindowExpiry b)
    | _, some 0 => some .hslBreakEnd
    | _, _ => none

/-- The expiry due for a port (R136, R138). -/
def dueOfPort (s : State) (p : PortId) : Option Instr :=
  if (s.port.get p).timer = some 0 then
    match (s.port.get p).st with
    | .detecting => some (.offerWindowExpiry p)
    | .proposed => some (.confirmTimerExpiry p)
    | .confirming => some (.verifyWindowExpiry p)
    | .detached => none
    | .ready => none
    | .rejected _ => none
    | .isolated => none
  else none

/-- The expiry due for the control link port (R155, R159). -/
def dueOfLink (l : Link) : Option Instr :=
  if l.frameTimer = some 0 ∧ l.rx = .receiving then some .frameTimerExpiry
  else if l.silence = some 0 then some .silenceTimerExpiry
  else none

/-- The expiry due for the budget unit and the arbiter (R28, R37, R149). -/
def dueOfBudget (s : State) : Option Instr :=
  if s.arb.brk = some 0 then some .breakTimerExpiry
  else if s.budget.foldWait = some 0 then some .foldSettleExpiry
  else if s.budget.delay = some 0 then some .requestDelayExpiry
  else if s.budget.passTimer = 0 then some .passTimerExpiry
  else none

/-- The expiry taken next, in a fixed order: the link, the records by slot, the charge sessions, the hinge, the ports, the
arbiter, and the budget pass last. -/
def dueEvent (s : State) : Option Instr :=
  ([dueOfLink s.link] ++ (List.finRange 24).map (dueOfSlot s) ++
    [dueOfCharge s .A, dueOfCharge s .B, dueOfHinge s.hinge, dueOfPort s .cable, dueOfPort s .coil, dueOfBudget s]).findSome?
    id

end Sys2Proof.Machine
end

