-- ==== Sys2Proof/Safety.lean ====
section
/-! DEFINITION. What claims about the block say: when it takes a frame, what an answer leaves, which timers stand at their end, the
figures of a pass by their rules, and the invariants that every step keeps, one for each block of the spec's overview (00_scope,
Block overview). -/

namespace Sys2Proof.Machine

/-! ### Frames and answers -/

/-- The port takes the frame of a host command: RSTN is high, and either LSEL is high with the receiver IDLE, so that the
frame's own fall begins it, or LSEL is low with a frame in progress (R154, R155). -/
def takesFrame (s : State) : Bool :=
  !s.link.rstnLow && (if s.link.lselHigh then s.link.rx == .idle else s.link.rx == .receiving)

/-- The state after the edges of a frame that the port takes, before its command acts: LSEL is high, the receiver IDLE with
its timer stopped, and, where the frame's own fall began it, the answer that was held has left the buffer for LDO (R155,
R158). -/
def afterEdges (s : State) : State :=
  { s with
    link :=
      { s.link with
        rx := .idle
        lselHigh := true
        frameTimer := none
        ldo := if s.link.lselHigh then s.link.buffer else s.link.ldo
        buffer := if s.link.lselHigh then none else s.link.buffer } }

/-- A command has left the block as `u`: its answer stands in the buffer, the status byte assembled from `u` (R158), and the
silence timer is restarted at SILENCE_LIMIT seconds, or off at 0 (R159). -/
def answered (u : State) (out : Outc) (payload : List Byte) : State :=
  { u with
    link :=
      { u.link with
        buffer := some ⟨statusByte u, out, payload⟩
        silence := if u.lim.silenceLimit = 0 then none else some (u.lim.silenceLimit * 1000) } }

/-- The command of a row answers `out` and changes nothing but the link, as a refused command does (R158). -/
def answersOnly (i : Instr) (s : State) (out : Outc) (payload : List Byte) : Prop :=
  exec i s = .next (answered (afterEdges s) out payload)

/-- The outcomes of a command that was carried out (R158). -/
def Outc.carriedOut : Outc → Bool
  | .done => true
  | .doneClamped => true
  | .firstFrame => true
  | .badArg => false
  | .badHandle => false
  | .staleHandle => false
  | .notOwner => false
  | .wrongState => false
  | .tableFull => false
  | .locked => false
  | .unknownCommand => false
  | .frameShort => false
  | .frameBadLength => false
  | .frameBadCheck => false
  | .frameTimeout => false

/-- The state with the pass-requested mark set: where it was clear, the request delay of 1 ms starts (R28). -/
def withRequest (s : State) : State :=
  { s with
    budget := { s.budget with mark := true, delay := if s.budget.mark then s.budget.delay else some 1 } }

/-- The figure of two bytes, most significant first (R170). -/
def word2 (hi lo : Byte) : Nat := hi.toNat * 256 + lo.toNat

/-- The figure of `n` bytes of a payload from byte `k` on, counted from 0 (R170). -/
def fieldAt (payload : List Byte) (k n : Nat) : Nat := unsignedOf ((payload.drop k).take n)

/-- The host commands but RESET, as their rows. -/
def hostCommands : List (List Byte → Instr) :=
  [.nop, .reserve, .adjust, .renew, .release, .query, .collect, .readBudget, .readCell, .readInput, .offers, .applied, .isolate,
    .isolateCell, .clearFault, .setLimit, .getLimit, .lockLimits, .readConditions, .setMasks, .readCounters]

/-- The host commands with their codes (R172). -/
def commandCodes : List (Byte × (List Byte → Instr)) :=
  [(0x00, .nop), (0x10, .reserve), (0x11, .adjust), (0x12, .renew), (0x13, .release), (0x14, .query), (0x15, .collect),
    (0x20, .readBudget), (0x21, .readCell), (0x22, .readInput), (0x30, .offers), (0x31, .applied), (0x32, .isolate),
    (0x38, .isolateCell), (0x39, .clearFault), (0x40, .setLimit), (0x41, .getLimit), (0x42, .lockLimits),
    (0x50, .readConditions), (0x51, .setMasks), (0x52, .readCounters), (0x7F, .reset)]

/-- The argument lengths R172 lists for each host command. -/
def commandLengths : List ((List Byte → Instr) × List Nat) :=
  [(.nop, [0]), (.reserve, [11]), (.adjust, [5]), (.renew, [3]), (.release, [3]), (.query, [1]), (.collect, [0]),
    (.readBudget, [0]), (.readCell, [1]), (.readInput, [1]), (.offers, [6, 11, 16, 21, 26, 31]), (.applied, [1]),
    (.isolate, [2]), (.isolateCell, [2]), (.clearFault, [1]), (.setLimit, [5, 8]), (.getLimit, [2]), (.lockLimits, [0]),
    (.readConditions, [0]), (.setMasks, [5]), (.readCounters, [0]), (.reset, [0])]

/-- The fields of a RESERVE lie where R6 admits them. -/
def reserveInRange (owner prio kind draw life burst wait : Nat) : Bool :=
  owner ≤ 14 && prio ≤ 7 && kind ≤ 1 && 1 ≤ draw && draw ≤ 20000 && life ≤ 3600 && wait ≤ 60000 &&
    (if kind = 1 then decide (1 ≤ burst) && decide (burst ≤ 2000) else burst == 0)

/-- A handle with its acting owner passes checks 1 to 4 of R5: it names the record `r` in slot `k`. -/
def handleNames (s : State) (owner slot gen : Byte) (k : Fin 24) (r : Record) : Prop :=
  owner.toNat ≤ 14 ∧ slot.toNat = k.val ∧ k ≠ 0 ∧ recordOf s k = some r ∧ (slotOf s k).gen = gen ∧
    (owner.toNat = r.owner ∨ owner = 0)

/-- The zone that R81 and R82 give from a present zone and a sampled temperature, at zone edges at least 5 °C apart: an edge is
crossed outward at its value, and inward, toward NORMAL, 2 °C beyond it. -/
def nextZone (e : Vector Int 4) (z : Zone) (t : Int) : Zone :=
  match z with
  | .cold =>
    if t < e[0] + 2 then .cold else if t < e[1] + 2 then .cool else if t < e[2] then .normal else if t < e[3] then .warm
    else .hot
  | .cool =>
    if t < e[0] then .cold else if t < e[1] + 2 then .cool else if t < e[2] then .normal else if t < e[3] then .warm
    else .hot
  | .normal =>
    if t < e[0] then .cold else if t < e[1] then .cool else if t < e[2] then .normal else if t < e[3] then .warm else .hot
  | .warm =>
    if t < e[0] then .cold else if t < e[1] then .cool else if t ≤ e[2] - 2 then .normal else if t < e[3] then .warm
    else .hot
  | .hot =>
    if t < e[0] then .cold else if t < e[1] then .cool else if t ≤ e[2] - 2 then .normal else if t ≤ e[3] - 2 then .warm
    else .hot

/-- The state with bits of the condition field latched (R164). -/
def latchedWith (bits : BitVec 26) (s : State) : State :=
  { s with cond := { s.cond with latched := s.cond.latched ||| bits } }

/-- The bits of a condition that each cell has one of: cell A's bit, and cell B's next to it (11.1). -/
def cellFlag (x : Cell) (bitsOfA : BitVec 26) : BitVec 26 :=
  match x with
  | .A => bitsOfA
  | .B => bitsOfA <<< 1

/-- One more, unless it already stands at 255 (R168). -/
def oneMore (n : Nat) : Nat := if n < 255 then n + 1 else n

/-- A cell's charge phase machine becomes `c`; a change of its phase requests a pass (R29). -/
def withPhase (x : Cell) (c : Charge) (s : State) : State :=
  { s with
    chg := s.chg.set x c
    budget := if c.phase = (s.chg.get x).phase then s.budget else (withRequest s).budget }

/-- The state with a cell's charge count set (R77, R80). A cell with no record has no count. -/
def withCount (x : Cell) (n : Nat) (s : State) : State :=
  { s with mon := s.mon.set x { s.mon.get x with rd := (s.mon.get x).rd.map fun r => { r with count := n } } }

/-- A charge phase machine that has lost the input: OFF from any phase but FAULT, its session discarded (R100). -/
def withoutInput (c : Charge) : Charge :=
  match c.phase with
  | .fault _ => c
  | .off => { c with session := none, termRun := 0 }
  | .precharge => { c with phase := .off, session := none, termRun := 0 }
  | .fast => { c with phase := .off, session := none, termRun := 0 }
  | .taper => { c with phase := .off, session := none, termRun := 0 }
  | .full => { c with phase := .off, session := none, termRun := 0 }
  | .hold => { c with phase := .off, session := none, termRun := 0 }

/-- The active switch has opened: the arbiter is in `dest` with its break timer at 20 ms, the input command is gone, both cells have
lost the input, and a pass is requested (R146). -/
def switchOpened (dest : ArbState) (s : State) : State :=
  withRequest
    { s with
      arb := ⟨dest, some 20⟩
      chg := ⟨withoutInput s.chg.a, withoutInput s.chg.b⟩
      budget := { s.budget with inputCmd := none } }

/-- A port's switch has closed: the arbiter is ACTIVE on it, its Ie is the lower of its held current and the ceiling current, the input
command is that Ie, and a pass is requested (R132, R140, R146). -/
def switchedTo (p : PortId) (h : Held) (s : State) : State :=
  let ie := min h.i (portCeiling s p * 1000 / h.v / 10 * 10)
  withRequest
    { s with
      arb := { s.arb with st := .active p }
      port := s.port.set p { s.port.get p with ie := ie }
      budget := { s.budget with inputCmd := some ie } }

/-- A candidate of selection, as steps 1 to 4 of R135 work it out for a stored offer and a used acceptance entry. -/
def isCandidate (P : Nat) (l : Limits) (offers : List Offer) (c : Proposal) : Prop :=
  ∃ (o : Offer) (a : ProfileEntry), 1 ≤ c.offer ∧ offers[c.offer - 1]? = some o ∧ 1 ≤ c.entry ∧
    l.profile.toList[c.entry - 1]? = some a ∧ a.imax ≠ 0 ∧ 100 ≤ c.i ∧
    match o with
    | .fixed v i => a.vlo ≤ v ∧ v ≤ a.vhi ∧ c.v = v ∧ c.i = min (min i a.imax) (P * 1000 / v / 10 * 10)
    | .range lo hi i =>
      let low := max lo a.vlo
      let high := min hi a.vhi
      let need := ((P * 1000 + min i a.imax - 1) / min i a.imax + 19) / 20 * 20
      low ≤ high ∧ c.v = (if need ≤ high then max need low else high) ∧
        c.i = min (min i a.imax) (P * 1000 / c.v / 10 * 10)

/-- Whether candidate `c` loses to `b`, or is `b`: by power, then the lower voltage, then the lower offer index, then the lower
acceptance index (R135). -/
def losesTo (c b : Proposal) : Prop :=
  c.v * c.i / 1000 < b.v * b.i / 1000 ∨ (c.v * c.i / 1000 = b.v * b.i / 1000 ∧
    (b.v < c.v ∨ (b.v = c.v ∧ (b.offer < c.offer ∨ (b.offer = c.offer ∧ b.entry ≤ c.entry)))))

/-- The five bytes of an offer entry (R172). -/
def offerBytes : Offer → List Byte
  | .fixed v i => bytesOf 5 (v / 10 * 2 ^ 27 + i * 8)
  | .range lo hi i => bytesOf 5 (2 ^ 38 + lo / 10 * 2 ^ 27 + hi / 10 * 2 ^ 16 + i * 8)

/-- An offer that an entry can carry: voltages in 10 mV below 20,480 mV, a current below 8,192 mA (R172). -/
def carriedOffer : Offer → Bool
  | .fixed v i => v % 10 == 0 && v ≤ 20470 && i ≤ 8191
  | .range lo hi i => lo % 10 == 0 && lo ≤ 20470 && hi % 10 == 0 && hi ≤ 20470 && i ≤ 8191

/-- An offer that OFFERS keeps (R134). -/
def validOffer : Offer → Bool
  | .fixed v i => v % 20 == 0 && 4000 ≤ v && v ≤ 16000 && i % 10 == 0 && 100 ≤ i && i ≤ 5000
  | .range lo hi i =>
    lo % 20 == 0 && 4000 ≤ lo && lo ≤ hi && hi % 20 == 0 && hi ≤ 16000 && i % 10 == 0 && 100 ≤ i && i ≤ 5000

/-- A single limit item as section 10.6 and R172 list it: its identifier, its stored value, its range in force, its default and
whether it is lockable. -/
structure ItemRow where
  id : Byte
  value : Limits → Nat
  lo : Nat
  hi : Limits → Nat
  dflt : Nat
  lockable : Bool

/-- A row whose range is fixed. -/
def fixedRow (id : Byte) (value : Limits → Nat) (lo hi dflt : Nat) (lockable : Bool) : ItemRow :=
  ⟨id, value, lo, fun _ => hi, dflt, lockable⟩

/-- The lockable single items of section 10.6. -/
def lockableRows : List ItemRow :=
  [fixedRow 0x01 (fun l => l.chgTarget.a) 4200 4480 4400 true, fixedRow 0x02 (fun l => l.chgTarget.b) 4200 4480 4400 true,
    fixedRow 0x03 (fun l => l.fastI.a) 500 6000 2600 true, fixedRow 0x04 (fun l => l.fastI.b) 500 6000 1900 true,
    fixedRow 0x05 (fun l => l.preI.a) 50 500 200 true, fixedRow 0x06 (fun l => l.preI.b) 50 500 200 true,
    fixedRow 0x07 (fun l => l.preV) 2800 3300 3000 true,
    fixedRow 0x08 (fun l => l.termI.a) 50 500 130 true, fixedRow 0x09 (fun l => l.termI.b) 50 500 100 true,
    fixedRow 0x0A (fun l => l.rechargeDrop) 50 300 100 true, fixedRow 0x0B (fun l => l.preTimer) 5 120 30 true,
    fixedRow 0x0C (fun l => l.fastTimer) 60 600 300 true, fixedRow 0x0D (fun l => l.cutoffV) 2800 3400 3000 true,
    fixedRow 0x0E (fun l => l.hardDisI.a) 1000 8000 6000 true, fixedRow 0x0F (fun l => l.hardDisI.b) 1000 8000 4500 true,
    fixedRow 0x10 (fun l => l.hardCount) 1 15 2 true,
    fixedRow 0x11 (fun l => l.disRated.a) 500 6000 4000 true, fixedRow 0x12 (fun l => l.disRated.b) 500 6000 3000 true,
    fixedRow 0x13 (fun l => l.degradedI) 100 2000 500 true, fixedRow 0x17 (fun l => l.ceil.cable) 5000 45000 27000 true,
    fixedRow 0x18 (fun l => l.ceil.coil) 2500 20000 15000 true, fixedRow 0x19 (fun l => l.defaultI) 100 3000 500 true]

/-- The single items of section 10.6 that the lock does not refuse. -/
def freeRows : List ItemRow :=
  [fixedRow 0x1A (fun l => l.cap.a) 500 8000 2600 false, fixedRow 0x1B (fun l => l.cap.b) 500 8000 1900 false,
    fixedRow 0x1D (fun l => l.socKnee) 0 300 100 false,
    fixedRow 0x1E (fun l => l.chargeEn.a) 0 1 1 false, fixedRow 0x1F (fun l => l.chargeEn.b) 0 1 1 false,
    fixedRow 0x20 (fun l => l.etaIn) 200 256 236 false, fixedRow 0x21 (fun l => l.margin) 0 5000 1000 false,
    fixedRow 0x22 (fun l => l.admitHyst) 0 2000 500 false, fixedRow 0x23 (fun l => l.hingeROpen) 0 200 48 false,
    fixedRow 0x24 (fun l => l.hingeRFolded) 0 200 62 false, fixedRow 0x25 (fun l => l.balGain) 0 15 8 false,
    fixedRow 0x26 (fun l => l.balDeadband) 0 100 10 false, fixedRow 0x27 (fun l => l.eqEnable) 0 1 1 false,
    fixedRow 0x28 (fun l => l.eqPower) 250 3000 1500 false, fixedRow 0x29 (fun l => l.eqStart) 20 300 80 false,
    ⟨0x2A, fun l => l.eqStop, 0, fun l => l.eqStart - 10, 20, false⟩,
    fixedRow 0x2B (fun l => l.eqLoadMax) 0 10000 3000 false, fixedRow 0x2C (fun l => l.etaEq) 160 256 220 false,
    fixedRow 0x2D (fun l => l.odMargin) 0 5000 500 false, fixedRow 0x2E (fun l => l.odCount) 1 15 3 false,
    fixedRow 0x2F (fun l => l.droopMargin) 100 1000 300 false, fixedRow 0x30 (fun l => l.cablePreferred) 0 1 1 false,
    fixedRow 0x31 (fun l => l.silenceLimit) 0 60 0 false]

/-- Every single item of section 10.6. -/
def itemRows : List ItemRow := lockableRows ++ freeRows

/-- The two's complement value of three bytes (R170, R172). -/
def signed3 (b2 b1 b0 : Byte) : Int :=
  let n := b2.toNat * 65536 + b1.toNat * 256 + b0.toNat
  if n < 8388608 then n else (n : Int) - 16777216

/-- The two's complement value of `n` bytes of a payload from byte `k` on (R170). -/
def signedAt (payload : List Byte) (k n : Nat) : Int :=
  let v := fieldAt payload k n
  if v < 2 ^ (8 * n - 1) then v else (v : Int) - 2 ^ (8 * n)

/-! ### Timers (1.6, 2.1, 2.3, 5.8, 7.2, 7.3, 8.1, 9.1, 10.2, 10.4) -/

/-- A timer of the block stands at its end while it runs, and the row is its expiry: 0 for every timer that counts down, and 5,000 ms
for a burst's total (R19 to R22, R28, R37, R98, R118, R121, R124, R136, R138, R146, R155, R159). -/
inductive TimerAtEnd (s : State) : Instr → Prop where
  | frame : s.link.rx = .receiving → s.link.frameTimer = some 0 → TimerAtEnd s .frameTimerExpiry
  | silence : s.link.silence = some 0 → TimerAtEnd s .silenceTimerExpiry
  | lifetime (k : Fin 24) (r : Record) : recordOf s k = some r → r.live → r.lifeRem = some 0 → TimerAtEnd s (.lifetimeExpiry k)
  | burst (k : Fin 24) (r : Record) :
      recordOf s k = some r → r.st = .granted → r.kind = .burst → r.burstRem = some 0 → TimerAtEnd s (.burstExpiry k)
  | burstTotal (k : Fin 24) (r : Record) :
      recordOf s k = some r → r.st = .granted → r.kind = .burst → r.burstTot = some 5000 → TimerAtEnd s (.burstTotalExpiry k)
  | waitLimit (k : Fin 24) (r : Record) :
      recordOf s k = some r → r.live → r.st ≠ .granted → r.waitRem = some 0 → TimerAtEnd s (.waitLimitExpiry k)
  | precharge (x : Cell) (q : Session) :
      (s.chg.get x).phase = .precharge → (s.chg.get x).session = some q → q.pre = 0 → TimerAtEnd s (.prechargeTimerExpiry x)
  | fast (x : Cell) (q : Session) :
      (s.chg.get x).phase = .fast ∨ (s.chg.get x).phase = .taper → (s.chg.get x).session = some q → q.fast = 0 →
        TimerAtEnd s (.fastTimerExpiry x)
  | degraded : s.hinge.dataState = .stale → s.hinge.degTimer = some 0 → TimerAtEnd s .degradedTimerExpiry
  | replyWindow (begun : Bool) : s.hinge.exch = .window 0 begun → TimerAtEnd s (.replyWindowExpiry begun)
  | hslBreak : s.hinge.brk = some 0 → TimerAtEnd s .hslBreakEnd
  | offerWindow (p : PortId) :
      (s.port.get p).st = .detecting → (s.port.get p).timer = some 0 → TimerAtEnd s (.offerWindowExpiry p)
  | confirm (p : PortId) :
      (s.port.get p).st = .proposed → (s.port.get p).timer = some 0 → TimerAtEnd s (.confirmTimerExpiry p)
  | verify (p : PortId) :
      (s.port.get p).st = .confirming → (s.port.get p).timer = some 0 → TimerAtEnd s (.verifyWindowExpiry p)
  | breakWait : s.arb.brk = some 0 → TimerAtEnd s .breakTimerExpiry
  | foldSettle : s.budget.foldWait = some 0 → TimerAtEnd s .foldSettleExpiry
  | requestDelay : s.budget.delay = some 0 → TimerAtEnd s .requestDelayExpiry
  | pass : s.budget.passTimer = 0 → TimerAtEnd s .passTimerExpiry

/-- A row is the expiry of a timer; that of the reply window, whose row carries what the line has shown, stands apart. -/
inductive Expiry : Instr → Prop where
  | frame : Expiry .frameTimerExpiry
  | silence : Expiry .silenceTimerExpiry
  | lifetime (k : Fin 24) : Expiry (.lifetimeExpiry k)
  | burst (k : Fin 24) : Expiry (.burstExpiry k)
  | burstTotal (k : Fin 24) : Expiry (.burstTotalExpiry k)
  | waitLimit (k : Fin 24) : Expiry (.waitLimitExpiry k)
  | precharge (x : Cell) : Expiry (.prechargeTimerExpiry x)
  | fast (x : Cell) : Expiry (.fastTimerExpiry x)
  | degraded : Expiry .degradedTimerExpiry
  | hslBreak : Expiry .hslBreakEnd
  | offerWindow (p : PortId) : Expiry (.offerWindowExpiry p)
  | confirm (p : PortId) : Expiry (.confirmTimerExpiry p)
  | verify (p : PortId) : Expiry (.verifyWindowExpiry p)
  | breakWait : Expiry .breakTimerExpiry
  | foldSettle : Expiry .foldSettleExpiry
  | requestDelay : Expiry .requestDelayExpiry
  | pass : Expiry .passTimerExpiry

/-- The row is the expiry that brings a budget pass: of the pass timer or of the request delay, which stands at its end (R28). -/
def passDue (s : State) (row : Instr) : Prop :=
  (row = .passTimerExpiry ∧ s.budget.passTimer = 0) ∨ (row = .requestDelayExpiry ∧ s.budget.delay = some 0)

/-! ### The hinge sense line (12.6) -/

/-- The data bits of a SAMPLE on the hinge sense line: its nine bytes in order, each least significant bit first (R170, R175). -/
def sampleLine (m : SampleMsg) : List Bool :=
  [m.timing, m.seq, m.vHi, m.vLo, m.iHi, m.iLo, m.temp, m.flags, m.check].flatMap fun b => (List.range 8).map fun i => b.getLsbD i

/-! ### Answers on LDO (12.1, 12.2) -/

/-- The code of an outcome (R171). -/
def outcomeCode (o : Outc) : Byte :=
  match o with
  | .done => 0x00
  | .doneClamped => 0x01
  | .badArg => 0x10
  | .badHandle => 0x11
  | .staleHandle => 0x12
  | .notOwner => 0x13
  | .wrongState => 0x14
  | .tableFull => 0x15
  | .locked => 0x16
  | .unknownCommand => 0x17
  | .frameShort => 0x20
  | .frameBadLength => 0x21
  | .frameBadCheck => 0x22
  | .frameTimeout => 0x23
  | .firstFrame => 0x30

/-- The CRC-8 of a list of bytes, worked on byte values in the three steps of R170. -/
def checkOf (bs : List Byte) : Nat :=
  bs.foldl (fun r b => (List.range 8).foldl (fun r _ => if r < 128 then r * 2 else (r * 2 - 256) ^^^ 7) (r ^^^ b.toNat)) 255

/-! ### Limits of a cell (4.3, 4.7, 5.11) -/

/-- A cell's state of charge s, per mille (R76). -/
def chargeLevel (s : State) (x : Cell) : Option Nat :=
  (readingOf s x).map fun r => r.count * 1000 / (s.lim.cap.get x * 3600000)

/-- The charge fraction of a cell's present zone, 256ths; 0 before its first sample (R83, R85). -/
def zoneFraction (s : State) (x : Cell) : Nat :=
  match readingOf s x with
  | some r => (s.lim.derate.row r.zone).charge
  | none => 0

/-- The discharge limit Idis_x, by the five steps of R86. -/
def idis (s : State) (x : Cell) : Nat :=
  match readingOf s x with
  | none => 0
  | some r =>
    let byZone := s.lim.disRated.get x * (s.lim.derate.row r.zone).discharge / 256
    let level := r.count * 1000 / (s.lim.cap.get x * 3600000)
    let byKnee := if 0 < s.lim.socKnee ∧ level < s.lim.socKnee then byZone * level / s.lim.socKnee else byZone
    let byFloor := if x = .B ∧ s.hinge.dataState = .degraded then min byKnee s.lim.degradedI else byKnee
    let b := s.br.get x
    if b.isolated ∨ b.overcurrent ∨ b.chgOvercurrent ∨ b.overtemp ∨ b.cutoff then 0 else byFloor

/-- The charge ceiling current Ichg_x, by the table of R102. It follows a written charge fraction at once (the model's choice, log
30). -/
def ichg (s : State) (x : Cell) : Nat :=
  let phase := (s.chg.get x).phase
  if phase = .precharge then s.lim.preI.get x
  else if phase = .fast ∨ phase = .taper then s.lim.fastI.get x * zoneFraction s x / 256
  else 0

/-- An entry of the derating table by its zone, COLD 0 to HOT 4, and its column: charge fraction 0, target reduction 1, discharge
fraction 2 (R85, R172). -/
def derateAt (d : Derate) (z : Fin 5) (c : Fin 3) : Nat :=
  let row := #v[d.cold, d.cool, d.normal, d.warm, d.hot][z]
  #v[row.charge, row.reduction, row.discharge][c]

/-- The derating table with one entry replaced. -/
def withDerate (d : Derate) (z : Fin 5) (c : Fin 3) (v : Nat) : Derate :=
  let change := fun r : DerateRow =>
    if c = 0 then { r with charge := v } else if c = 1 then { r with reduction := v } else { r with discharge := v }
  if z = 0 then { d with cold := change d.cold }
  else if z = 1 then { d with cool := change d.cool }
  else if z = 2 then { d with normal := change d.normal }
  else if z = 3 then { d with warm := change d.warm }
  else { d with hot := change d.hot }

/-! ### The equalizer stage of a pass (1.5, 2.4, 3.7) -/

/-- What R65 asks for a start and R66 for going on, with `low` the low cell: EQ_ENABLE 1, the arbiter in NONE, cell B LIVE, both
branches CLOSED, the low cell's charge fraction above 0 and its phase not FAULT, and L' at most EQ_LOAD_MAX. -/
def mayTransfer (s : State) (low : Cell) : Bool :=
  s.lim.eqEnable ≠ 0 ∧ s.arb.st = .none ∧ s.hinge.dataState = .live ∧ branchState s .A = .closed ∧ branchState s .B = .closed ∧
    zoneFraction s low ≠ 0 ∧ (∀ f ∈ [ChgFault.overvoltage, .prechargeTimeout, .chargeTimeout], (s.chg.get low).phase ≠ .fault f) ∧
    grantedSum s + s.load.U - equalizerDraw s ≤ s.lim.eqLoadMax

/-- The direction in which the equalizer starts, where it does: from the cell with the higher state of charge, at a difference of
EQ_START or more (R65). While a cell has no state of charge it does not start (the model's choice, log 5). -/
def startsTransfer (s : State) : Option Dir :=
  match chargeLevel s .A, chargeLevel s .B with
  | some a, some b =>
    if s.lim.eqStart ≤ (a - b) + (b - a) then
      if b < a then (if mayTransfer s .B then some .aToB else none) else if mayTransfer s .A then some .bToA else none
    else none
  | _, _ => none

/-- Whether an equalizing record of a direction goes on: R66 with its fixed cells, s_source − s_low above EQ_STOP. An
absent state of charge is worked as 0 (the model's choice, log 5). -/
def keepsTransfer (s : State) (d : Option Dir) : Bool :=
  let a : Int := (chargeLevel s .A).getD 0
  let b : Int := (chargeLevel s .B).getD 0
  if d = some .bToA then mayTransfer s .A ∧ (s.lim.eqStop : Int) < b - a else mayTransfer s .B ∧ (s.lim.eqStop : Int) < a - b

/-- The table as the equalizer stage leaves it: a record created PENDING in a FREE slot 0, or the one there freed, or neither
(R18, R40, R65, R66). -/
def equalized (s : State) : State :=
  match recordOf s 0 with
  | none =>
    match startsTransfer s with
    | none => s
    | some d =>
      let n := if s.resv.arrivals < 65535 then s.resv.arrivals + 1 else s.resv.arrivals
      let r : Record :=
        { owner := 15, prio := 0, kind := .steady, st := .pending, draw := s.lim.eqPower, pendDraw := none, lifeSet := 0
          lifeRem := none, burstSet := 0, burstRem := none, burstTot := none, waitSet := 0, waitRem := none, arrival := n
          grantStamp := none, mark := false, dir := some d }
      { s with resv := { s.resv with slots := s.resv.slots.set 0 ⟨(slotOf s 0).gen, some r⟩, arrivals := n } }
  | some r =>
    if keepsTransfer s r.dir then s
    else { s with resv := { s.resv with slots := s.resv.slots.set 0 ⟨(slotOf s 0).gen + 1, none⟩ } }

/-! ### Shedding and the verdicts of a pass (1.4, 2.5) -/

/-- Whether the record `q` of slot `j` stands before the record `r` of slot `k` in shed order: a lower priority, or an equal one
with a later grant stamp, or an equal stamp in a higher slot (R42). -/
def standsBefore (j : Fin 24) (q : Record) (k : Fin 24) (r : Record) : Bool :=
  q.prio < r.prio ∨ (q.prio = r.prio ∧
    (r.grantStamp.getD 0 < q.grantStamp.getD 0 ∨ (r.grantStamp.getD 0 = q.grantStamp.getD 0 ∧ k < j)))

/-- The granted sum when shedding comes to the record `r` of slot `k`: the draws of the GRANTED records that do not stand before
it, its own among them. -/
def sumFrom (s : State) (k : Fin 24) (r : Record) : Nat :=
  ((List.finRange 24).map fun j => match recordOf s j with
    | some q => if q.st = .granted ∧ standsBefore j q k r = false then q.draw else 0
    | none => 0).sum

/-- Whether the record of slot `k` is shed from the table `s`: it is GRANTED, and when shedding comes to it L is above 0 and L + U is
above the level (R41, R42). -/
def isShed (s : State) (level : Int) (u : Nat) (k : Fin 24) : Bool :=
  match recordOf s k with
  | some r => r.st = .granted ∧ 0 < sumFrom s k r ∧ level < sumFrom s k r + u
  | none => false

/-- What a shed verdict leaves of the record of slot `k` (R17). -/
def afterShed (k : Fin 24) (r : Record) : Record :=
  { r with
    st := .waiting .revoked, draw := r.pendDraw.getD r.draw, pendDraw := none
    waitRem := if r.waitSet = 0 then none else some r.waitSet, mark := r.mark || k != 0 }

/-- The record of a slot as the shedding stage leaves the table `s`. -/
def shedRecord (s : State) (level : Int) (u : Nat) (k : Fin 24) : Option Record :=
  (recordOf s k).map fun r => if isShed s level u k then afterShed k r else r

/-- The draw a record has once it is granted, where it is a candidate: its draw in PENDING and WAITING, its pending draw while GRANTED
(R15, R45). -/
def claimOf (r : Record) : Option Nat :=
  match r.st with
  | .pending => some r.draw
  | .waiting _ => some r.draw
  | .granted => r.pendDraw
  | .ended _ => none

/-- Admission order: the record `q` of slot `j` is walked before the record `r` of slot `k`, at a higher priority, or at an equal one
with a lower arrival stamp, or at equal ones in a lower slot (R45). -/
def walkedBefore (j : Fin 24) (q : Record) (k : Fin 24) (r : Record) : Bool :=
  r.prio < q.prio ∨ (q.prio = r.prio ∧ (q.arrival < r.arrival ∨ (q.arrival = r.arrival ∧ j < k)))

/-- The slots granted before the walk comes to the record `r` of slot `k`. -/
def grantedBefore (table : Fin 24 → Option Record) (granted : Fin 24 → Bool) (k : Fin 24) (r : Record) : List (Fin 24) :=
  (List.finRange 24).filter fun j => granted j && (table j).any fun q => walkedBefore j q k r

/-- The granted sum when the walk comes to the record `r` of slot `k`. -/
def sumAt (table : Fin 24 → Option Record) (granted : Fin 24 → Bool) (k : Fin 24) (r : Record) : Nat :=
  ((List.finRange 24).map fun j => match table j with
    | some q =>
      if j ∈ grantedBefore table granted k r then (claimOf q).getD 0 else if q.st = .granted then q.draw else 0
    | none => 0).sum

/-- `granted` are the slots that the admission walk over `table` grants at the level T − M − H: the candidates above which by priority
every candidate is granted, and which fit, L + U + need being within the level. A candidate that does not fit, a pending increase
among them, thus sets the fence against every lower priority (R45, R46). -/
def admitsExactly (table : Fin 24 → Option Record) (level : Int) (u : Nat) (granted : Fin 24 → Bool) : Prop :=
  ∀ k, granted k = true ↔ ∃ r, table k = some r ∧ ∃ d, claimOf r = some d ∧
    (∀ j q, table j = some q → (claimOf q).isSome → r.prio < q.prio → granted j = true) ∧
    (sumAt table granted k r : Int) + u + (if r.st = .granted then d - r.draw else d : Nat) ≤ level

/-- What the admission walk leaves of a record of slot `k`, granted with a grant stamp or not: a grant or an increase taken up, a no-room
verdict on a PENDING record, and nothing else (R15, R16, R47). -/
def afterWalk (k : Fin 24) (granted : Bool) (stamp : Nat) (r : Record) : Record :=
  if granted then
    if r.st = .granted then
      { r with draw := r.pendDraw.getD r.draw, pendDraw := none, grantStamp := some stamp, mark := r.mark || k != 0 }
    else { r with st := .granted, waitRem := none, grantStamp := some stamp, mark := r.mark || k != 0 }
  else if r.st = .pending then { r with st := .waiting .noRoom, mark := r.mark || k != 0 }
  else r

/-! ### The split of a pass (3.2 to 3.5) -/

/-- The share of cell A in 1024ths (R52, R53). Before cell A's first sample, when it has no state of charge, the balance term is 0
(the model's choice, log 5). -/
def shareOf (s : State) (charge : Bool) : Nat :=
  let cs : Int := (1024 * s.lim.cap.a / (s.lim.cap.a + s.lim.cap.b) : Nat)
  let term : Int := match chargeLevel s .A, chargeLevel s .B with
    | some a, some b =>
      if s.hinge.dataState = .awaiting ∨ (a - b) + (b - a) ≤ s.lim.balDeadband then 0
      else (s.lim.balGain * (if charge then (b : Int) - a else (a : Int) - b)).tdiv 8
    | _, _ => 0
  (min 1024 (max 0 (cs + term))).toNat

/-- The charge cap Cc_x at a ceiling current (R54). -/
def chargeCapAt (s : State) (x : Cell) (ceiling : Nat) : Nat :=
  if branchState s x = .openFault ∨ branchState s x = .openIsolated ∨ (x = .B ∧
    (s.hinge.dataState = .awaiting ∨ s.hinge.dataState = .stale ∨ s.hinge.dataState = .degraded)) then 0
  else cellVolt s x * ceiling / 1000

/-- The three checks of R61 on a cell's command; `low` says that the cell is the low cell of a granted equalizing record. -/
def commandChecked (s : State) (x : Cell) (low : Bool) (c : Int) : Int :=
  if (branchState s x = .chargeOnly ∧ c < 0) ∨ branchState s x = .openFault ∨ branchState s x = .openIsolated then 0
  else if 0 < c ∧ x = .B ∧
    (s.hinge.dataState = .awaiting ∨ s.hinge.dataState = .stale ∨ s.hinge.dataState = .degraded) then 0
  else if 0 < c ∧ low = false ∧ ∃ f ∈ [ChgFault.overvoltage, .prechargeTimeout, .chargeTimeout], (s.chg.get x).phase = .fault f then 0
  else c

/-! ### Reservation table (1.2) -/

/-- A field that is present exactly in some states (1.2). -/
def presentIff {α : Type} (f : Option α) (c : Bool) : Bool := f.isSome == c

/-- A record agrees with the field table of section 1.2, in the slot that holds it. A remaining time may stand at 0 between
the moment it runs out and its expiry. -/
def recordOk (grants arrivals : Nat) (k : Fin 24) (r : Record) : Bool :=
  (if k = 0 then r.owner == 15 && r.prio == 0 && r.kind == .steady && r.lifeSet == 0 && r.waitSet == 0 && !r.mark
    else r.owner ≤ 14) &&
  r.prio ≤ 7 && 1 ≤ r.draw && r.draw ≤ 20000 &&
  (r.pendDraw.all fun p => r.st == .granted && decide (r.draw < p) && decide (p ≤ 20000)) &&
  r.lifeSet ≤ 3600 && presentIff r.lifeRem (r.lifeSet != 0 && r.live) && (r.lifeRem.all fun n => n ≤ r.lifeSet * 1000) &&
  (if r.kind = .burst then decide (1 ≤ r.burstSet) && decide (r.burstSet ≤ 2000) else r.burstSet == 0) &&
  presentIff r.burstRem (r.kind == .burst && r.live) && (r.burstRem.all fun n => n ≤ r.burstSet) &&
  presentIff r.burstTot (r.kind == .burst) && (r.burstTot.all fun n => n ≤ 5000) &&
  r.waitSet ≤ 60000 && presentIff r.waitRem (r.waitSet != 0 && r.live && r.st != .granted) &&
  (r.waitRem.all fun n => n ≤ r.waitSet) &&
  1 ≤ r.arrival && r.arrival ≤ arrivals && (r.grantStamp.all fun g => 1 ≤ g && g ≤ grants) &&
  (r.grantStamp.isSome || r.st != .granted) && presentIff r.dir (k == 0)

/-- The record of a slot, where it holds one, agrees with the field table. -/
def slotOk (s : State) (k : Fin 24) : Bool := (recordOf s k).all (recordOk s.resv.grants s.resv.arrivals k)

/-- Every record agrees with the field table, and the stamp counters lie in 0..65,535 (R1, R3, 1.2). -/
def tableOk (s : State) : Bool :=
  (List.finRange 24).all (slotOk s) && s.resv.arrivals ≤ 65535 && s.resv.grants ≤ 65535

/-- Whether any record is GRANTED. -/
def anyGranted (s : State) : Bool := (List.finRange 24).any fun k => (recordOf s k).any fun r => r.st == .granted

/-- Whenever any record is GRANTED, the granted sum is at most T − M − U as the last pass recorded them (R44). -/
def grantsBounded (s : State) : Bool :=
  !anyGranted s || grantedSum s + s.budget.pub.M + s.budget.pub.U ≤ s.budget.pub.T

/-! ### Limit set (10.6) -/

/-- A figure within a range. -/
def inRange (r : Nat × Nat) (v : Nat) : Bool := r.1 ≤ v && v ≤ r.2

/-- Every single item, each cell's and each port's counted apart. -/
def allItems : List Item :=
  [.chgTarget .A, .chgTarget .B, .fastI .A, .fastI .B, .preI .A, .preI .B, .preV, .termI .A, .termI .B, .rechargeDrop,
    .preTimer, .fastTimer, .cutoffV, .hardDisI .A, .hardDisI .B, .hardCount, .disRated .A, .disRated .B, .degradedI,
    .ceil .cable, .ceil .coil, .defaultI, .cap .A, .cap .B, .socKnee, .chargeEn .A, .chargeEn .B, .etaIn, .margin] ++
  [.admitHyst, .hingeROpen, .hingeRFolded, .balGain, .balDeadband, .eqEnable, .eqPower, .eqStart, .eqStop, .eqLoadMax, .etaEq,
    .odMargin, .odCount, .droopMargin, .cablePreferred, .silenceLimit]

/-- A row of the derating table is within its ranges (R85). -/
def derateRowOk (d : DerateRow) : Bool := d.charge ≤ 256 && d.reduction ≤ 300 && d.discharge ≤ 256

/-- An acceptance profile entry is as a write stores it (R133). -/
def profileOk (e : ProfileEntry) : Bool :=
  4000 ≤ e.vlo && e.vlo ≤ e.vhi && e.vhi ≤ 16000 && e.vlo % 20 == 0 && e.vhi % 20 == 0 &&
    (e.imax == 0 || (100 ≤ e.imax && e.imax ≤ 5000 && e.imax % 10 == 0))

/-- A list of figures rises strictly. -/
def rising : List Nat → Bool
  | a :: b :: rest => a < b && rising (b :: rest)
  | _ => true

/-- The zone edges lie in −30..70 °C and at least 5 °C apart (R81). -/
def edgesOk (e : Vector Int 4) : Bool :=
  -30 ≤ e[0] && e[0] + 5 ≤ e[1] && e[1] + 5 ≤ e[2] && e[2] + 5 ≤ e[3] && e[3] ≤ 70

/-- Every limit item lies in its range, with the clamps of the table items (10.6, R79, R81, R85, R133, R160). -/
def limitsOk (l : Limits) : Bool :=
  (allItems.all fun i => inRange (itemRange l i) (l.get i)) && edgesOk l.zoneEdges &&
  derateRowOk l.derate.cold && derateRowOk l.derate.cool && derateRowOk l.derate.normal && derateRowOk l.derate.warm &&
  derateRowOk l.derate.hot && l.profile.toList.all profileOk &&
  rising l.rest.toList && 2500 ≤ l.rest[0] && l.rest[10] ≤ 4600

/-! ### Budget unit and commands (2, 3) -/

/-- The request delay runs exactly while the pass-requested mark is set (R28). -/
def requestOk (s : State) : Bool := s.budget.mark == s.budget.delay.isSome

/-- A cell's command lies within the limits the last pass read, and is 0 in a direction its branch state forbids (R62). -/
def commandOk (s : State) (x : Cell) : Bool :=
  -(s.budget.pub.disLim.get x : Int) ≤ s.budget.cmd.get x && s.budget.cmd.get x ≤ (s.budget.pub.chgCeil.get x : Int) &&
    !(branchState s x).forbids (s.budget.cmd.get x)

/-- Both commands are within their bounds (R62). -/
def commandsOk (s : State) : Bool := commandOk s .A && commandOk s .B

/-- Cell B's charge command is zero while its data state is AWAITING, STALE or DEGRADED (R61). -/
def heldCellNotCharged (s : State) : Bool := !s.hinge.dataState.holds || s.budget.cmd.get .B ≤ 0

/-! ### Cells (4, 5, 6, 7) -/

/-- A cell's state of charge lies in 0..1000 and its charge count in 0..capacity × 3,600,000 (R76). -/
def countOk (s : State) (x : Cell) : Bool :=
  (readingOf s x).all fun r =>
    decide (r.count ≤ s.lim.cap.get x * 3600000) && decide (socOf s.lim x r.count ≤ 1000)

/-- The counts of both cells. -/
def countsOk (s : State) : Bool := countOk s .A && countOk s .B

/-- A stored reading lies in the measuring ranges (R71, R72). -/
def readingOk (r : Reading) : Bool := r.v ≤ 5000 && -8000 ≤ r.i && r.i ≤ 8000 && -40 ≤ r.t && r.t ≤ 125

/-- The stored readings of both cells and the latest accepted far sample lie in their ranges (R71, R72, R120). -/
def readingsOk (s : State) : Bool :=
  (readingOf s .A).all readingOk && (readingOf s .B).all readingOk &&
    s.hinge.latest.all fun f => 2000 ≤ f.v && f.v ≤ 4700 && -40 ≤ f.t && f.t ≤ 100

/-- The hinge link controller's runs, timer and records follow its data state: the runs in their ranges, the good run counted
only in STALE and DEGRADED, the degraded timer running exactly in STALE, and nothing accepted exactly in AWAITING (7.3, R73, R122
to R125). -/
def ladderOk (s : State) : Bool :=
  let h := s.hinge
  h.failRun ≤ 3 && h.goodRun ≤ 4 && (h.goodRun == 0 || h.dataState.byCommand) &&
    h.degTimer.isSome == (h.dataState == .stale) &&
    h.latest.isSome == (h.dataState != .awaiting) && h.lastSeq.isSome == (h.dataState != .awaiting) &&
    (readingOf s .B).isSome == (h.dataState != .awaiting)

/-- Whether a phase belongs to a charge session: the charging phases and HOLD (5). -/
def Phase.inSession : Phase → Bool
  | .precharge => true
  | .fast => true
  | .taper => true
  | .hold => true
  | .off => false
  | .full => false
  | .fault _ => false

/-- A machine holds its two timers exactly within a session; its runs stay below their ends, and the termination run is counted
only in TAPER (R91, R95, R98). -/
def chargeOk (c : Charge) : Bool :=
  c.session.isSome == c.phase.inSession && c.ovRun ≤ 2 && c.termRun ≤ 2 && (c.termRun == 0 || c.phase == .taper)

/-- Both charge phase machines. -/
def chargesOk (s : State) : Bool := chargeOk s.chg.a && chargeOk s.chg.b

/-- While overdraw is OFF the unaccounted draw is 0; it never passes 65,535 mW (R115, R116). -/
def overdrawOk (s : State) : Bool := (s.load.on || s.load.U == 0) && s.load.U ≤ 65535 && s.load.pm ≤ 100000

/-! ### Ports and arbiter (8, 9) -/

/-- A port without a held contract has an Ie of 0; with one it is READY, PROPOSED or CONFIRMING, and its Ie is at most the held
current and at most floor(P × 1000 / Vc) for its present ceiling (R139, R140). -/
def portOk (s : State) (p : PortId) : Bool :=
  match (s.port.get p).held with
  | none => (s.port.get p).ie == 0
  | some h =>
    ((s.port.get p).st == .ready || (s.port.get p).st == .proposed || (s.port.get p).st == .confirming) &&
      (s.port.get p).ie ≤ h.i && (s.port.get p).ie ≤ portCeiling s p * 1000 / h.v

/-- Both ports. -/
def portsOk (s : State) : Bool := portOk s .cable && portOk s .coil

/-- The active port is eligible, its break timer is the arbiter's own, and there is an input command only while a port is active
(R49, R139, R146, R148). -/
def arbiterOk (s : State) : Bool :=
  match s.arb.st with
  | .active p => eligible s p && s.arb.brk.isNone
  | .changeover => s.arb.brk.isSome && s.budget.inputCmd.isNone
  | .none => s.budget.inputCmd.isNone

/-! ### Condition unit and link (10, 11) -/

/-- Every counter lies in 0..255 (R168). -/
def countersOk (s : State) : Bool :=
  s.cond.cnt.frameCheck ≤ 255 && s.cond.cnt.framesShort ≤ 255 && s.cond.cnt.framesTimeout ≤ 255 &&
    s.cond.cnt.farNoReply ≤ 255 && s.cond.cnt.farBadReply ≤ 255 && s.cond.cnt.farCollision ≤ 255 &&
    s.cond.cnt.recordsShed ≤ 255 && s.cond.cnt.overdraws ≤ 255

/-- The receiver follows its lines: the frame timer runs exactly in RECEIVING, the receiver is IDLE while LSEL is high and while RSTN
holds the port in reset (R154, R155). -/
def receiverOk (s : State) : Bool :=
  (s.link.frameTimer.isSome == (s.link.rx == .receiving)) && (!s.link.lselHigh || s.link.rx == .idle) &&
    (!s.link.rstnLow || s.link.rx == .idle)

end Sys2Proof.Machine
end

