-- ==== Sys2Proof/Certificates/Slice0/Obligations.lean ====
section
/-! DEFINITION. The statements for the provers. `takesFrame`, `afterEdges`, `answered` and the invariants are of
Sys2Proof/Safety.lean. A statement about a host command is about its whole frame (R155 to R158). -/

section
open Sys2Proof Sys2Proof.Machine

/-! ### The step -/

/-- A step takes the command at the front of the queue and runs it on the state with the queue's rest. -/
def Obligations.StepRunsTheFrontCommand : Prop :=
  ∀ (c : Instr) (rest : List Instr) (s : State), s.pending = c :: rest → step s = exec c { s with pending := rest }

/-- While nothing waits, a step takes the expiry of a timer that stands at its end, as that expiry's own row; and while no timer does,
it is one millisecond (both the model's choice, log 1), in which each timer counts where the spec has it run and nothing else
happens: a record's lifetime in every live state, its burst while GRANTED and its wait in PENDING and WAITING, the pass timer, the
request delay, the fold wait, the session timers in their phases, the reply window, the J262's break, the degraded timer, a port's
timer, the break-before-make wait, the frame and silence timers, and the time to the next sample slots (R19 to R22, R28, R37, R98,
R118, R121, R124, R146, R155, R159). Which of several expiries is taken first is left to the model. Whether idle or not, the row of an
expiry changes nothing where its timer does not stand at its end, as after a restart; that a row may come with time remaining is the
model's choice (log 4). -/
def Obligations.IdleStepCountsRecordTimers : Prop :=
  ∀ s : State, (∀ e, Expiry e → ¬TimerAtEnd s e → exec e s = .next s) ∧ (s.pending = [] →
    ((∃ e, TimerAtEnd s e) → ∃ e, TimerAtEnd s e ∧ step s = exec e s) ∧
    ((¬∃ e, TimerAtEnd s e) →
      let less := fun (n : Nat) (t : Option Nat) => t.map fun v => v - n
      let record := fun r : Record => match r.st with
        | .granted =>
          { r with
            lifeRem := less 1 r.lifeRem, burstRem := less 1 r.burstRem
            burstTot := r.burstTot.map (fun n => min 5000 (n + 1)) }
        | .pending => { r with lifeRem := less 1 r.lifeRem, waitRem := less 1 r.waitRem }
        | .waiting _ => { r with lifeRem := less 1 r.lifeRem, waitRem := less 1 r.waitRem }
        | .ended _ => r
      let session := fun c : Charge =>
        { c with
          session := c.session.map fun q =>
            if c.phase = .precharge then { q with pre := q.pre - 1 }
            else if c.phase = .fast ∨ c.phase = .taper then { q with fast := q.fast - 1 }
            else q }
      let port := fun q : Port => { q with timer := less 1 q.timer }
      step s = .next
        { s with
          link := { s.link with frameTimer := less 1 s.link.frameTimer, silence := less 1 s.link.silence }
          resv := { s.resv with slots := s.resv.slots.map fun sl => ⟨sl.gen, sl.record.map record⟩ }
          budget :=
            { s.budget with
              passTimer := s.budget.passTimer - 1, delay := less 1 s.budget.delay, foldWait := less 1 s.budget.foldWait }
          chg := ⟨session s.chg.a, session s.chg.b⟩
          hinge :=
            { s.hinge with
              exch := match s.hinge.exch with
                | .window left begun => .window (left - 1000) begun
                | .polling sent => .polling sent
                | .ended => .ended
              brk := less 1000 s.hinge.brk, degTimer := less 1 s.hinge.degTimer }
          port := ⟨port s.port.cable, port s.port.coil⟩
          arb := { s.arb with brk := less 1 s.arb.brk }
          slots :=
            { cellA := s.slots.cellA - 1, hinge := s.slots.hinge - 1, load := s.slots.load - 1
              input := ⟨s.slots.input.cable - 1, s.slots.input.coil - 1⟩, die := s.slots.die - 1 } }))

/-! ### Invariants that every step keeps -/

/-- Every invariant of Sys2Proof/Safety.lean holds at reset. -/
def Obligations.EveryInvariantHoldsAtReset : Prop :=
  tableOk State.reset ∧ grantsBounded State.reset ∧ limitsOk State.reset.lim ∧ requestOk State.reset ∧
    commandsOk State.reset ∧ heldCellNotCharged State.reset ∧ countsOk State.reset ∧ readingsOk State.reset ∧
    ladderOk State.reset ∧ chargesOk State.reset ∧ overdrawOk State.reset ∧ portsOk State.reset ∧ arbiterOk State.reset ∧
    countersOk State.reset ∧ receiverOk State.reset

/-- Every limit item stays within its range, the table items with their clamps (10.6). -/
def Obligations.StepKeepsLimitsInRange : Prop :=
  ∀ s t : State, limitsOk s.lim → step s = .next t → limitsOk t.lim

/-- Every record stays as the field table of section 1.2 says: owner and slot, ranges, and which field is present in which
state. -/
def Obligations.StepKeepsRecordsWellFormed : Prop :=
  ∀ s t : State, limitsOk s.lim → tableOk s → step s = .next t → tableOk t

/-- R44: whenever any record is GRANTED, the granted sum is at most T − M − U as the most recent pass recorded them. -/
def Obligations.StepKeepsGrantsWithinCapability : Prop :=
  ∀ s t : State, limitsOk s.lim → tableOk s → grantsBounded s → step s = .next t → grantsBounded t

/-- R62: each cell's command stays within the discharge limit and the charge ceiling that the most recent pass read, and is zero
in a direction its branch state forbids; and cell B's charge command is zero whenever its data state is AWAITING, STALE or
DEGRADED (R61). The limits a pass read are noted in fields of the model's own (log 20). -/
def Obligations.StepKeepsCommandsWithinLimits : Prop :=
  ∀ s t : State, step s = .next t →
    (commandsOk s → commandsOk t) ∧ (heldCellNotCharged s → heldCellNotCharged t)

/-- R76: each cell's state of charge lies in 0..1000 and its charge count in 0..capacity × 3,600,000; and stored readings stay in
the measuring ranges (R71, R72). -/
def Obligations.StepKeepsCellRecordsInRange : Prop :=
  ∀ s t : State, countsOk s → readingsOk s → step s = .next t → countsOk t ∧ readingsOk t

/-- The request delay runs exactly while the pass-requested mark is set (R28); while overdraw is OFF the unaccounted draw is 0, and it
never passes its clamp (R115, R116); every counter lies in 0..255 (R168); the receiver stays in step with LSEL, RSTN and its frame
timer (R154, R155). -/
def Obligations.StepKeepsMarkOverdrawCountersAndReceiver : Prop :=
  ∀ s t : State, step s = .next t →
    (requestOk s → requestOk t) ∧ (overdrawOk s → overdrawOk t) ∧ (countersOk s → countersOk t) ∧
      (receiverOk s → receiverOk t)

/-- Cell B's data state, the runs, the degraded timer and the accepted sample stay in step with each other (7.3, R73). -/
def Obligations.StepKeepsDataStateLadder : Prop :=
  ∀ s t : State, ladderOk s → step s = .next t → ladderOk t

/-- A phase machine holds its timers exactly within a session, and its runs stay below their ends (R91, R95, R98). -/
def Obligations.StepKeepsChargeSessions : Prop :=
  ∀ s t : State, chargesOk s → step s = .next t → chargesOk t

/-- R140: each port's effective current is at most its held contract current and at most floor(P × 1000 / Vc) for its present
ceiling, and 0 without a held contract; the active port stays eligible, and there is an input command only while a port is active
(R49, R146, R148). -/
def Obligations.StepKeepsPortCurrentsAndActivePort : Prop :=
  ∀ s t : State, step s = .next t → (portsOk s → portsOk t) ∧ (arbiterOk s → arbiterOk t)

/-- Only SET_LIMIT and the resets change a limit item, and no command but a reset clears the limits lock once it is set; the rise of
LSEL does either only at the end of a well-formed frame that carries SET_LIMIT or RESET (R157, R160, R161). -/
def Obligations.OnlyResetClearsTheLock : Prop :=
  ∀ (s t : State) (c : Instr), exec c s = .next t →
    let resets := c = .reset [] ∨ c = .rstnLow ∨ c = .powerOnReset ∨
      ∃ b, c = .lselRise b ∧ checkFrame (wholeBytes b) = .wellFormed 0x7F []
    let sets := (∃ a, c = .setLimit a) ∨ ∃ b, c = .lselRise b ∧ ∃ a, checkFrame (wholeBytes b) = .wellFormed 0x40 a
    (t.lim = s.lim ∨ sets ∨ resets) ∧ (s.locked = true → t.locked = true ∨ resets)

/-! ### Frames and answers -/

/-- The frame of any command code and argument list, with whatever bits follow it, is read back as that code and that list
(R156, R170, R171). -/
def Obligations.FrameReadsBackItsCommand : Prop :=
  ∀ (code : Byte) (args : List Byte) (extra : List Bool), args.length ≤ 32 →
    checkFrame (wholeBytes (bitsOfBytes (frameOf code args) ++ extra)) = .wellFormed code args

/-- LSEL_RISE at the end of a frame that carries a command acts as that command's row; a code that names no command answers
UNKNOWN_COMMAND and changes nothing (R157, R172). That a command's row is its whole frame, and that LSEL_RISE carries its bits,
is the model's choice (log 10). -/
def Obligations.LselRiseCarriesOutTheCommand : Prop :=
  ∀ (s : State) (args : List Byte) (extra : List Bool), args.length ≤ 32 → s.link.rstnLow = false →
    s.link.lselHigh = false → s.link.rx = .receiving →
    (∀ c ∈ commandCodes, exec (.lselRise (bitsOfBytes (frameOf c.1 args) ++ extra)) s = exec (c.2 args) s) ∧
    (∀ code : Byte, (∀ c ∈ commandCodes, c.1 ≠ code) →
      answersOnly (.lselRise (bitsOfBytes (frameOf code args) ++ extra)) s .unknownCommand [])

/-- R156: an erred frame runs no command. Its outcome is placed with an empty payload, FRAME_ERROR is latched, its counter
counts, and the silence timer goes on; the checks are made in order. `bs` are the frame's whole bytes and `tail` the bits of an
unfinished byte. That the status byte is assembled before FRAME_ERROR is latched is the model's reading (log 13). -/
def Obligations.ErredFrameRunsNoCommand : Prop :=
  ∀ (s : State) (bs : List Byte) (tail : List Bool), tail.length < 8 → s.link.rstnLow = false →
    s.link.lselHigh = false → s.link.rx = .receiving →
    let erred := fun (o : Outc) (c : Counters) => exec (.lselRise (bitsOfBytes bs ++ tail)) s = .next
      { s with
        link := { (afterEdges s).link with buffer := some ⟨statusByte s, o, []⟩ }
        cond := { s.cond with latched := s.cond.latched ||| 0x2000000#26, cnt := c } }
    let up := fun n : Nat => if n < 255 then n + 1 else n
    (bs.length < 2 → erred .frameShort { s.cond.cnt with framesShort := up s.cond.cnt.framesShort }) ∧
    (∀ (code n : Byte) (rest : List Byte), bs = code :: n :: rest →
      (32 < n.toNat → erred .frameBadLength { s.cond.cnt with frameCheck := up s.cond.cnt.frameCheck }) ∧
      (n.toNat ≤ 32 → bs.length < n.toNat + 3 →
        erred .frameShort { s.cond.cnt with framesShort := up s.cond.cnt.framesShort }) ∧
      (n.toNat ≤ 32 → n.toNat + 3 ≤ bs.length → rest[n.toNat]? ≠ some (crc8 (bs.take (n.toNat + 2))) →
        erred .frameBadCheck { s.cond.cnt with frameCheck := up s.cond.cnt.frameCheck }))

/-- A fall of LSEL in IDLE begins a frame: the frame timer starts at 10 ms and the answer held moves to LDO. While RSTN holds
the port in reset a fall takes nothing. The frame timer that has run out in RECEIVING errs the frame FRAME_TIMEOUT and discards the
rest of it; the rise of LSEL then only ends the discarding. In IDLE and DISCARDING, and with time remaining, the expiry does not happen
(R154, R155, R158). That the answer stays noted as LDO's, that RSTN bars a fall and that the status byte is assembled before FRAME_ERROR
is latched are the model's readings (logs 11, 12 and 13), as is that a row may come with time remaining (log 4). -/
def Obligations.FrameBeginsAtAFallAndTimesOut : Prop :=
  ∀ s : State,
    (s.link.lselHigh = true → s.link.rstnLow = false → s.link.rx = .idle →
      exec .lselFall s = .next
        { s with
          link :=
            { s.link with
              lselHigh := false, rx := .receiving, frameTimer := some 10, ldo := s.link.buffer, buffer := none } }) ∧
    (s.link.lselHigh = true → s.link.rstnLow = true →
      exec .lselFall s = .next { s with link := { s.link with lselHigh := false } }) ∧
    (s.link.rx = .receiving → s.link.frameTimer = some 0 → exec .frameTimerExpiry s = .next
      { s with
        link := { s.link with rx := .discarding, frameTimer := none, buffer := some ⟨statusByte s, .frameTimeout, []⟩ }
        cond :=
          { s.cond with
            latched := s.cond.latched ||| 0x2000000#26
            cnt :=
              { s.cond.cnt with
                framesTimeout := if s.cond.cnt.framesTimeout < 255 then s.cond.cnt.framesTimeout + 1
                  else s.cond.cnt.framesTimeout } } }) ∧
    (s.link.rx ≠ .receiving ∨ s.link.frameTimer ≠ some 0 → exec .frameTimerExpiry s = .next s) ∧
    (∀ bits, s.link.rx = .discarding → s.link.lselHigh = false → s.link.rstnLow = false →
      exec (.lselRise bits) s = .next
        { s with link := { s.link with lselHigh := true, rx := .idle, frameTimer := none } })

/-- A host command's row answers in its frame. A refused command changes nothing. BAD_ARG refuses an argument list whose length is not
one listed for the command, a cell, port or on/off byte that is none of its codes, and an OFFERS with an entry of unknown type
(R134, R157, R158, R170, R172). That a row is a whole frame is the model's choice (log 10). -/
def Obligations.RefusedCommandChangesNothing : Prop :=
  (∀ c ∈ hostCommands, ∀ (args : List Byte) (s : State), args.length ≤ 32 → takesFrame s →
    ∃ (u : State) (out : Outc) (payload : List Byte), exec (c args) s = .next (answered u out payload) ∧
      (out.carriedOut = false → u = afterEdges s ∧ payload = [])) ∧
  (∀ c ∈ commandLengths, ∀ (args : List Byte) (s : State), args.length ≤ 32 → args.length ∉ c.2 → takesFrame s →
    answersOnly (c.1 args) s .badArg []) ∧
  (∀ (s : State) (b e : Byte), takesFrame s → 1 < b.toNat →
    (∀ row ∈ [Instr.readCell [b], .readInput [b], .applied [b], .clearFault [b], .isolate [b, e], .isolate [e, b],
      .isolateCell [b, e], .isolateCell [e, b]], answersOnly row s .badArg []) ∧
    ∀ entries : List Byte, entries.length ≤ 31 → answersOnly (.offers (b :: entries)) s .badArg []) ∧
  (∀ (s : State) (port type b3 b2 b1 b0 : Byte) (before rest : List Byte), takesFrame s → 2 ≤ type.toNat / 64 →
    before.length % 5 = 0 → before.length + rest.length ≤ 26 →
    answersOnly (.offers (port :: before ++ type :: b3 :: b2 :: b1 :: b0 :: rest)) s .badArg [])

/-- The status byte of an answer: ATTN active in bit 7, the limits lock in bit 6, an active input in bit 5, a GRANTED equalizing
record in bit 4 and the pass sequence in bits 3..0; and when ATTN is active. The answer that has moved to LDO is shifted out most
significant bit first: the status byte, the outcome's code, the payload's length, the payload and the check over them, with zeros
after it; LDO is low while RSTN is low (R154, R158, R165, R170, R171). That it is low where no answer is held is the model's reading
(log 12). -/
def Obligations.StatusByteReportsTheBlock : Prop :=
  ∀ s : State,
    ((statusByte s).getLsbD 7 = attnActive s ∧ (statusByte s).getLsbD 6 = s.locked ∧
      (statusByte s).getLsbD 5 = (activePort s).isSome ∧
      ((statusByte s).getLsbD 4 = true ↔ ∃ r, recordOf s 0 = some r ∧ r.st = .granted) ∧
      (statusByte s).toNat % 16 = s.budget.seq.val) ∧
    (attnActive s = true ↔ s.cond.master = true ∧
      ((∃ i : Fin 26, s.cond.latched.getLsbD i = true ∧ s.cond.masks.getLsbD i = false) ∨
        (s.cond.recordAttn = true ∧ ∃ k r, recordOf s k = some r ∧ r.mark = true))) ∧
    (∀ bs : List Byte, (crc8 bs).toNat = checkOf bs) ∧
    (∀ k : Nat, s.link.rstnLow = true ∨ s.link.ldo = none → ldoBit s k = false) ∧
    ∀ a, s.link.ldo = some a → s.link.rstnLow = false →
      let bs := a.status :: outcomeCode a.out :: BitVec.ofNat 8 a.payload.length :: a.payload
      (∀ (k : Nat) (b : Byte), (bs ++ [crc8 bs])[k / 8]? = some b → ldoBit s k = b.getLsbD (7 - k % 8)) ∧
      ∀ k : Nat, 8 * (a.payload.length + 4) ≤ k → ldoBit s k = false

/-! ### Reservation table -/

/-- A RESERVE with a field out of range is refused BAD_ARG before the search for a slot, and one within its ranges TABLE_FULL while
every host slot is taken. Otherwise it creates a PENDING record in the lowest FREE host slot, with the next arrival stamp, its settings
and its timers, answers its handle and requests a pass (R1, R3, R6, R7). An owner byte above 15 is refused as 15 is (the model's reading,
log 9). -/
def Obligations.ReserveCreatesAPendingRecord : Prop :=
  ∀ (s : State) (o p kb d1 d0 l1 l0 b1 b0 w1 w0 : Byte), takesFrame s →
    let row := Instr.reserve [o, p, kb, d1, d0, l1, l0, b1, b0, w1, w0]
    let ok := reserveInRange o.toNat p.toNat kb.toNat (word2 d1 d0) (word2 l1 l0) (word2 b1 b0) (word2 w1 w0)
    let n := if s.resv.arrivals < 65535 then s.resv.arrivals + 1 else s.resv.arrivals
    let r : Record :=
      { owner := o.toNat, prio := p.toNat, kind := if kb = 1 then .burst else .steady, st := .pending
        draw := word2 d1 d0, pendDraw := none
        lifeSet := word2 l1 l0, lifeRem := if word2 l1 l0 = 0 then none else some (word2 l1 l0 * 1000)
        burstSet := word2 b1 b0, burstRem := if kb = 1 then some (word2 b1 b0) else none
        burstTot := if kb = 1 then some 0 else none
        waitSet := word2 w1 w0, waitRem := if word2 w1 w0 = 0 then none else some (word2 w1 w0)
        arrival := n, grantStamp := none, mark := false, dir := none }
    (ok = false → answersOnly row s .badArg []) ∧
    (ok = true → (∀ j : Fin 24, j ≠ 0 → (recordOf s j).isSome) → answersOnly row s .tableFull []) ∧
    (ok = true → ∀ k : Fin 24, k ≠ 0 → recordOf s k = none → (∀ j : Fin 24, j ≠ 0 → j < k → (recordOf s j).isSome) →
      exec row s = .next
        (answered
          (withRequest
            { afterEdges s with
              resv := { s.resv with slots := s.resv.slots.set k ⟨(slotOf s k).gen, some r⟩, arrivals := n } })
          .done [BitVec.ofNat 8 k.val, (slotOf s k).gen]))

/-- The checks of ADJUST, RENEW and RELEASE in their order, the first to fail giving the outcome and changing nothing (R5). An
acting owner above 15 is refused as 15 is (the model's reading, log 9). -/
def Obligations.HandleChecksGiveTheFirstFailure : Prop :=
  ∀ (s : State) (o sl g d1 d0 : Byte), takesFrame s →
    (¬(o.toNat ≤ 14 ∧ 1 ≤ word2 d1 d0 ∧ word2 d1 d0 ≤ 20000) → answersOnly (.adjust [o, sl, g, d1, d0]) s .badArg []) ∧
    (¬o.toNat ≤ 14 → answersOnly (.renew [o, sl, g]) s .badArg [] ∧ answersOnly (.release [o, sl, g]) s .badArg []) ∧
    (o.toNat ≤ 14 → 1 ≤ word2 d1 d0 → word2 d1 d0 ≤ 20000 →
      ∀ row ∈ [Instr.adjust [o, sl, g, d1, d0], Instr.renew [o, sl, g], Instr.release [o, sl, g]],
        (24 ≤ sl.toNat → answersOnly row s .badHandle []) ∧
        (sl.toNat = 0 → answersOnly row s .notOwner []) ∧
        (∀ k : Fin 24, k ≠ 0 → sl.toNat = k.val →
          (recordOf s k = none → answersOnly row s .staleHandle []) ∧
          ((slotOf s k).gen ≠ g → answersOnly row s .staleHandle []) ∧
          (∀ r, recordOf s k = some r → (slotOf s k).gen = g →
            (o.toNat ≠ r.owner → o ≠ 0 → answersOnly row s .notOwner []) ∧
            (handleNames s o sl g k r → r.live = false → row ≠ .release [o, sl, g] →
              answersOnly row s .wrongState []))))

/-- ADJUST: in PENDING and WAITING the draw is replaced; in GRANTED a lower draw is taken at once and drops a pending one, an equal
one drops it, a higher one becomes the pending draw; a pass is requested (R8, R9). RENEW restarts the timers its table names, leaves a
timer whose setting is 0 stopped, and requests no pass (R10). -/
def Obligations.AdjustAndRenewActByRecordState : Prop :=
  ∀ (s : State) (k : Fin 24) (r : Record) (o sl g : Byte), takesFrame s → handleNames s o sl g k r → r.live →
    (∀ d1 d0 : Byte, 1 ≤ word2 d1 d0 → word2 d1 d0 ≤ 20000 →
      exec (.adjust [o, sl, g, d1, d0]) s = .next
        (answered
          (withRequest (putRecord k
            (if r.st ≠ .granted then { r with draw := word2 d1 d0 }
              else if word2 d1 d0 < r.draw then { r with draw := word2 d1 d0, pendDraw := none }
              else if word2 d1 d0 = r.draw then { r with pendDraw := none }
              else { r with pendDraw := some (word2 d1 d0) })
            (afterEdges s)))
          .done [])) ∧
    exec (.renew [o, sl, g]) s = .next
      (answered
        (putRecord k
          (if r.st = .granted then
            if r.kind = .burst then { r with burstRem := some r.burstSet }
            else { r with lifeRem := if r.lifeSet = 0 then none else some (r.lifeSet * 1000) }
            else
              { r with
                lifeRem := if r.lifeSet = 0 then none else some (r.lifeSet * 1000)
                waitRem := if r.waitSet = 0 then none else some r.waitSet })
          (afterEdges s))
        .done [])

/-- RELEASE frees the slot and advances its generation, in every state of the record; the granted sum falls by the draw of a GRANTED
record; a pass is requested where the record was PENDING, WAITING or GRANTED (R2, R4, R11). -/
def Obligations.ReleaseFreesTheSlot : Prop :=
  ∀ (s : State) (k : Fin 24) (r : Record) (o sl g : Byte), takesFrame s → handleNames s o sl g k r →
    let u : State :=
      { afterEdges s with resv := { s.resv with slots := s.resv.slots.set k ⟨(slotOf s k).gen + 1, none⟩ } }
    exec (.release [o, sl, g]) s = .next (answered (if r.live then withRequest u else u) .done []) ∧
      grantedSum u + (if r.st = .granted then r.draw else 0) = grantedSum s

/-- QUERY of a FREE slot answers slot, generation and state 0; of a record, 30 bytes from which every field reads back; a slot
above 23 is BAD_HANDLE; nothing changes (R12, R173). That bit 3 of byte 5 is 0 is the model's choice (log 28). -/
def Obligations.QueryReportsTheSlot : Prop :=
  ∀ (s : State) (b : Byte), takesFrame s →
    (24 ≤ b.toNat → answersOnly (.query [b]) s .badHandle []) ∧
    ∀ k : Fin 24, b.toNat = k.val →
      (recordOf s k = none → answersOnly (.query [b]) s .done [b, (slotOf s k).gen, 0]) ∧
      (∀ r, recordOf s k = some r → slotOk s k → s.resv.arrivals ≤ 65535 → s.resv.grants ≤ 65535 →
        ∃ p, answersOnly (.query [b]) s .done p ∧ p.length = 30 ∧
          fieldAt p 0 1 = k.val ∧ fieldAt p 1 1 = (slotOf s k).gen.toNat ∧
          fieldAt p 2 1 = (match r.st with | .pending => 1 | .granted => 2 | .waiting _ => 3 | .ended _ => 4) ∧
          fieldAt p 3 1 = (match r.st with
            | .pending => 0
            | .granted => 0
            | .waiting .noRoom => 1
            | .waiting .revoked => 2
            | .ended .lifetime => 1
            | .ended .lapsed => 2
            | .ended .overstay => 3
            | .ended .waitLimit => 4
            | .ended .abandoned => 5) ∧
          fieldAt p 4 1 = r.owner * 16 + r.prio ∧ fieldAt p 6 2 = r.draw ∧ fieldAt p 8 2 = r.pendDraw.getD 0 ∧
          fieldAt p 10 2 = r.lifeSet ∧ fieldAt p 12 4 = r.lifeRem.getD 0 ∧ fieldAt p 16 2 = r.burstSet ∧
          fieldAt p 18 2 = r.burstRem.getD 0 ∧ fieldAt p 20 2 = r.burstTot.getD 0 ∧ fieldAt p 22 2 = r.waitSet ∧
          fieldAt p 24 2 = r.waitRem.getD 0 ∧ fieldAt p 26 2 = r.arrival ∧ fieldAt p 28 2 = r.grantStamp.getD 0 ∧
          (fieldAt p 5 1).testBit 7 = (r.kind == .burst) ∧ (fieldAt p 5 1).testBit 6 = r.mark ∧
          (fieldAt p 5 1).testBit 5 = r.pendDraw.isSome ∧ (fieldAt p 5 1).testBit 4 = r.lifeRem.isSome ∧
          (fieldAt p 5 1).testBit 3 = r.burstRem.isSome ∧ (fieldAt p 5 1).testBit 2 = r.waitRem.isSome ∧
          (fieldAt p 5 1).testBit 1 = r.grantStamp.isSome ∧ (fieldAt p 5 1).testBit 0 = (r.dir == some .bToA))

/-- COLLECT reports up to eight marked host records in ascending slot order, each by its slot, its generation and its state with its
cause, with "more" where marks remain, and clears the marks it reports; nothing else changes (R13, R173). That bits 6..4 of the count
byte are 0 is the model's choice (log 28). -/
def Obligations.CollectReportsAndClearsMarks : Prop :=
  ∀ s : State, takesFrame s →
    let marked := (List.finRange 24).filter fun k => k ≠ 0 ∧ (recordOf s k).any fun r => r.mark
    ∃ (u : State) (entries : List Byte),
      exec (.collect []) s = .next (answered u .done
        (BitVec.ofNat 8 ((if 8 < marked.length then 128 else 0) + min 8 marked.length) :: entries)) ∧
      entries.length = 3 * min 8 marked.length ∧
      (∀ (n : Nat) (k : Fin 24), n < 8 → marked[n]? = some k →
        entries[3 * n]? = some (BitVec.ofNat 8 k.val) ∧ entries[3 * n + 1]? = some (slotOf s k).gen ∧
        ∀ r, recordOf s k = some r → entries[3 * n + 2]? = some (match r.st with
          | .pending => 0x10
          | .granted => 0x20
          | .waiting .noRoom => 0x31
          | .waiting .revoked => 0x32
          | .ended .lifetime => 0x41
          | .ended .lapsed => 0x42
          | .ended .overstay => 0x43
          | .ended .waitLimit => 0x44
          | .ended .abandoned => 0x45)) ∧
      u = { afterEdges s with resv := { s.resv with slots := u.resv.slots } } ∧
      ∀ k : Fin 24, (slotOf u k).gen = (slotOf s k).gen ∧
        recordOf u k = (recordOf s k).map fun r => if k ∈ marked.take 8 then { r with mark := false } else r

/-- An expiry of a record timer that has run out ends the record with its cause, in place of any wait cause: its mark is set, its
timers stop, its burst total keeps its value, its pending draw is dropped, the granted sum falls by its draw and a pass is requested
if it was GRANTED. Everywhere else the expiry does not happen: on a FREE slot, on an ENDED record, where the timer does not run, as a
wait limit while GRANTED or a burst while waiting, and where time remains, as after a RENEW that restarted it (R19 to R23, R26).
That a row which comes with time remaining changes nothing is the model's choice (log 4). -/
def Obligations.RecordExpiryEndsTheRecord : Prop :=
  ∀ (s : State) (k : Fin 24), k ≠ 0 →
    (recordOf s k = none →
      ∀ row ∈ [Instr.lifetimeExpiry k, Instr.burstExpiry k, Instr.burstTotalExpiry k, Instr.waitLimitExpiry k],
        exec row s = .next s) ∧
    ∀ r, recordOf s k = some r →
      let finish := fun (c : EndCause) =>
        putRecord k
          { r with st := .ended c, pendDraw := none, lifeRem := none, burstRem := none, waitRem := none, mark := true } s
      let acts := fun (row : Instr) (c : EndCause) (due : Prop) =>
        (due → exec row s = .next (if r.st = .granted then withRequest (finish c) else finish c) ∧
          grantedSum (finish c) + (if r.st = .granted then r.draw else 0) = grantedSum s) ∧
        (¬due → exec row s = .next s)
      acts (.lifetimeExpiry k) .lifetime (r.live ∧ r.lifeRem = some 0) ∧
      acts (.burstExpiry k) .lapsed (r.st = .granted ∧ r.kind = .burst ∧ r.burstRem = some 0) ∧
      acts (.burstTotalExpiry k) .overstay (r.st = .granted ∧ r.kind = .burst ∧ r.burstTot = some 5000) ∧
      acts (.waitLimitExpiry k) .waitLimit ((r.st = .pending ∨ ∃ c, r.st = .waiting c) ∧ r.waitRem = some 0)

/-- Silence release ends every live host record of priority 0 to 6 ABANDONED and no other, latches SILENCE_RELEASE, requests a pass if
a GRANTED record was ended, and the timer stops. While the timer is stopped, and while it has time remaining, as after a frame that
restarted it, no release happens (R24, R159). -/
def Obligations.SilenceReleaseEndsLowerPriorities : Prop :=
  ∀ s : State, (s.link.silence ≠ some 0 → exec .silenceTimerExpiry s = .next s) ∧ (s.link.silence = some 0 →
    ∃ t, exec .silenceTimerExpiry s = .next t ∧
      (∀ k : Fin 24, (slotOf t k).gen = (slotOf s k).gen ∧
        recordOf t k = (recordOf s k).map fun r =>
          if k ≠ 0 ∧ r.prio ≤ 6 ∧ r.live then
            { r with
              st := .ended .abandoned, pendDraw := none, lifeRem := none, burstRem := none, waitRem := none, mark := true }
          else r) ∧
      ((∃ k r, k ≠ 0 ∧ recordOf s k = some r ∧ r.prio ≤ 6 ∧ r.st = .granted) → t.budget = (withRequest s).budget) ∧
      ((¬∃ k r, k ≠ 0 ∧ recordOf s k = some r ∧ r.prio ≤ 6 ∧ r.st = .granted) → t.budget = s.budget) ∧
      t = { s with
            link := { s.link with silence := none }
            resv := { s.resv with slots := t.resv.slots }
            budget := t.budget
            cond := { s.cond with latched := s.cond.latched ||| 0x8#26 } })

/-! ### The budget pass -/

/-- A pass publishes the figures of its capability stage: S of the active port under the Ie the droop step leaves, the
allowances of the cells, the hinge loss at cell B's limit, their sum T, and M, H and U as used, with the discharge limits and
charge ceilings it read, the low cell of a granted equalizing record at its equalizing ceiling, and the presence, state and transfer
direction of the equalizing record as the pass leaves it; then it advances the sequence,
clears the mark, stops the request delay and starts the pass timer at 20 ms. The limits are worked by their own steps: zone fraction,
knee, degraded floor and branch, and the ceiling by phase and zone. Besides the table, the commands and the condition
unit it moves only the active port's Ie: down by 100 mA below Vc − DROOP_MARGIN, up by 100 mA within the held and the ceiling
current at 100 mV above that. The pass timer and the request delay bring the same pass, either at its end alone, and after it neither
stands at its end (R28, R32 to R39, R48, R62, R67, R70, R86, R102, R141). The noted limits are the model's own fields (log 20), and that
the row of either may come with time remaining (log 4) and that a charge ceiling follows a written charge fraction at once (log 30) are
its choices. -/
def Obligations.PassPublishesItsCapability : Prop :=
  ∀ s : State, (s.budget.passTimer ≠ 0 → exec .passTimerExpiry s = .next s) ∧
    (s.budget.delay ≠ some 0 → exec .requestDelayExpiry s = .next s) ∧ ∀ row, passDue s row →
    ∃ t, exec row s = .next t ∧
    let p := t.budget.pub
    p.S = (match s.arb.st with
      | .active q =>
        match (s.port.get q).held with
        | some h => h.v * (t.port.get q).ie / 1000 * s.lim.etaIn / 256
        | none => 0
      | .none => 0
      | .changeover => 0) ∧
    t.port = (match s.arb.st with
      | .active q =>
        match (s.port.get q).held with
        | some h =>
          s.port.set q
            { s.port.get q with
              ie :=
                if (s.port.get q).vin + s.lim.droopMargin < h.v then
                  (if (s.port.get q).ie ≤ 100 then (s.port.get q).ie else max 100 ((s.port.get q).ie - 100))
                else if h.v + 100 ≤ (s.port.get q).vin + s.lim.droopMargin then
                  min (min h.i (ceilCurrent (portCeiling s q) h.v)) ((s.port.get q).ie + 100)
                else (s.port.get q).ie }
        | none => s.port
      | .none => s.port
      | .changeover => s.port) ∧
    p.dA = cellVolt s .A * idis s .A / 1000 ∧ p.dB = cellVolt s .B * idis s .B / 1000 ∧
    p.rh = (if s.budget.fold = .folded then s.lim.hingeRFolded else s.lim.hingeROpen) ∧
    p.lossMax = idis s .B * idis s .B * p.rh / 1000000 ∧ p.dBn = p.dB - p.lossMax ∧
    p.T = p.S + p.dA + p.dBn ∧ p.fold = s.budget.fold ∧ p.M = s.lim.margin ∧ p.H = s.lim.admitHyst ∧ p.U = s.load.U ∧
    p.L = grantedSum t ∧ p.eq = (recordOf t 0).map (fun r => (r.st, r.dir)) ∧ p.disLim = ⟨idis s .A, idis s .B⟩ ∧
    (equalizerDraw t = 0 → p.chgCeil = ⟨ichg s .A, ichg s .B⟩) ∧
    (∀ r, recordOf t 0 = some r → 0 < equalizerDraw t →
      p.chgCeil = if r.dir = some .bToA then ⟨s.lim.fastI.a * zoneFraction s .A / 256, ichg s .B⟩
        else ⟨ichg s .A, s.lim.fastI.b * zoneFraction s .B / 256⟩) ∧
    t.budget.seq = s.budget.seq + 1 ∧
    t = { s with
          resv := t.resv
          budget :=
            { s.budget with
              pub := t.budget.pub, seq := t.budget.seq, mark := false, delay := none, passTimer := 20, cmd := t.budget.cmd
              inputCmd := t.budget.inputCmd }
          port := t.port
          cond := { s.cond with latched := t.cond.latched, cnt := t.cond.cnt } }

/-- What a pass leaves of the table. The equalizer stage creates the equalizing record in a FREE slot 0, frees it, or leaves it, by
the conditions of its start and its stop. Then exactly the records at which L + U still stands above T − M, in shed order, are
shed, each counted once in RECORDS_SHED, with SHED latched where there is one and BUDGET_CRITICAL where one has priority 7. The
admission walk grants exactly the candidates that stand below no candidate left ungranted at a higher priority and fit with
L + U + need within T − M − H, in admission order, pending increases and records shed in this pass among them, with grant stamps in
that order. Every record ends as its verdicts leave it, and the split stage frees a granted equalizing record that its source cell
cannot carry. After it no record is PENDING, where any is GRANTED the granted sum with U lies within T − M, and where the pass
granted any it lies within T − M − H (R15 to R18, R40 to R47, R55, R65, R66). That the equalizer does not start while a cell has no
state of charge, and that its stop works an absent one as 0, is the model's choice (log 5). -/
def Obligations.PassLeavesNoRecordPending : Prop :=
  ∀ (s : State) (row : Instr), passDue s row → s.resv.grants ≤ 65535 → ∃ t, exec row s = .next t ∧
    let e := equalized s
    let p := t.budget.pub
    let shed := (List.finRange 24).filter fun k => isShed e ((p.T : Int) - p.M) p.U k
    let table := shedRecord e ((p.T : Int) - p.M) p.U
    let source := fun r : Record => if r.dir = some .bToA then p.dBn else p.dA
    (∀ k r, recordOf t k = some r → r.st ≠ .pending) ∧
    (grantedSum t = 0 ∨ grantedSum t + p.M + p.U ≤ p.T) ∧
    (0 < p.granted → grantedSum t + p.U + p.M + p.H ≤ p.T) ∧
    (∃ granted : Fin 24 → Bool, admitsExactly table ((p.T : Int) - p.M - p.H) p.U granted ∧
      p.granted = ((List.finRange 24).filter granted).length ∧
      ∀ k, (table k = none → slotOf t k = slotOf e k) ∧
        ∀ r, table k = some r →
          let r' := afterWalk k (granted k) (min 65535 (s.resv.grants + (grantedBefore table granted k r).length + 1)) r
          slotOf t k =
            if k = 0 ∧ r'.st = .granted ∧ source r' < r'.draw then ⟨(slotOf e k).gen + 1, none⟩ else ⟨(slotOf e k).gen, some r'⟩) ∧
    t.resv.arrivals = e.resv.arrivals ∧ t.resv.grants = min 65535 (s.resv.grants + p.granted) ∧
    p.shed = shed.length ∧
    t.cond.cnt = { s.cond.cnt with recordsShed := max s.cond.cnt.recordsShed (min 255 (s.cond.cnt.recordsShed + shed.length)) } ∧
    t.cond.latched = s.cond.latched ||| (if shed = [] then 0 else 0x1#26) |||
      (if ∃ k ∈ shed, (recordOf e k).any fun r => r.prio == 7 then 0x2#26 else 0)

/-- The fence, for records that are not GRANTED before the pass: it grants none whose priority is below that of a record it leaves
WAITING (R46). Pending increases taken up, records shed and granted again in the same pass, and an equalizing record that the pass
itself creates are left out here; what a pass leaves of every record is PassLeavesNoRecordPending's to say. -/
def Obligations.PassGrantsNothingBelowAWaitingRecord : Prop :=
  ∀ (s t : State) (row : Instr) (j k : Fin 24) (r r' q : Record) (c : WaitCause), passDue s row → exec row s = .next t →
    recordOf s j = some r → r.st ≠ .granted → recordOf t j = some r' → r'.st = .granted →
    recordOf t k = some q → q.st = .waiting c → q.prio ≤ r'.prio

/-- Shed order: a record the pass sheds and leaves waiting stands before every record it leaves granted: a lower priority, or an
equal one with a later grant stamp, or an equal stamp in a higher slot (R42). A grant counter that stands at 65,535, and records
kept whose increase the pass took up, are left out here. -/
def Obligations.PassShedsInShedOrder : Prop :=
  ∀ (s t : State) (row : Instr) (j k : Fin 24) (r q r' q' : Record), tableOk s → s.resv.grants < 65535 → passDue s row →
    exec row s = .next t →
    recordOf s j = some r → r.st = .granted → recordOf t j = some r' → r'.st = .waiting .revoked →
    recordOf s k = some q → q.st = .granted → recordOf t k = some q' → q'.st = .granted → q'.grantStamp = q.grantStamp →
    r.prio < q.prio ∨ (r.prio = q.prio ∧
      (q.grantStamp.getD 0 < r.grantStamp.getD 0 ∨ (q.grantStamp = r.grantStamp ∧ k < j)))

/-- What a pass publishes of the split, and the commands it hands on. N is S less the system load. Without a granted equalizing record
the amount is a charge of N between the charge caps, or a discharge of −N between D_A and D_Bn; with one of draw E it is a discharge
with E taken from its source cell's cap, that cell giving its share and E, the low cell taking what it receives less its share. The
share of cell A is its capacity share with the balance term, and each command follows from the cell's net power after the checks.
The input current command is absent without S, Ie while everything is placed or the cells discharge, and the fraction rounded up
otherwise, never above Ie (R51 to R58, R61, R63, R67, R68, R174). That before cell A's first sample the balance term is 0 (log
5), and that a charge ceiling follows a written charge fraction at once (log 30), are the model's choices. -/
def Obligations.PassPublishesTheSplit : Prop :=
  ∀ (s : State) (row : Instr), passDue s row → ∃ t, exec row s = .next t ∧
    let p := t.budget.pub
    let ie := match t.arb.st with | .active q => (t.port.get q).ie | .none => 0 | .changeover => 0
    let E := equalizerDraw t
    let vA := cellVolt s .A
    let vB := cellVolt s .B
    let splits := fun (charge : Bool) (capA capB : Nat) => splitAmount p.N.natAbs (shareOf s charge) capA capB = ⟨p.pA, p.pB, p.r⟩
    let commands := fun (netA netB : Int) (lowA lowB : Bool) =>
      t.budget.cmd = ⟨commandChecked s .A lowA (commandA netA vA), commandChecked s .B lowB (commandB netB vB p.rh)⟩
    let received := fun cap : Nat => min (E * s.lim.etaEq / 256) cap
    p.N = (p.S : Int) - ((p.L + p.U - E : Nat) : Int) ∧
    p.pA + p.pB + p.r = p.N.natAbs ∧
    (E = 0 → 0 ≤ p.N → splits true (chargeCapAt s .A (ichg s .A)) (chargeCapAt s .B (ichg s .B)) ∧ commands p.pA p.pB false false) ∧
    (E = 0 → p.N < 0 → splits false p.dA p.dBn ∧ commands (-p.pA) (-p.pB) false false) ∧
    (∀ r, recordOf t 0 = some r → 0 < E →
      (r.dir ≠ some .bToA → E ≤ p.dA ∧ splits false (p.dA - E) p.dBn ∧ commands (-(p.pA + E : Nat))
        ((received (chargeCapAt s .B (s.lim.fastI.b * zoneFraction s .B / 256)) : Int) - p.pB) false true) ∧
      (r.dir = some .bToA → E ≤ p.dBn ∧ splits false p.dA (p.dBn - E) ∧ commands
        ((received (chargeCapAt s .A (s.lim.fastI.a * zoneFraction s .A / 256)) : Int) - p.pA) (-(p.pB + E : Nat)) true false)) ∧
    (p.S = 0 → t.budget.inputCmd = none) ∧
    (0 < p.S → (p.N < 0 ∨ p.r = 0) → t.budget.inputCmd = some ie) ∧
    (0 < p.S → 0 ≤ p.N → 0 < p.r → t.budget.inputCmd = some ((ie * (p.S - p.r) + p.S - 1) / p.S)) ∧
    (∀ c, t.budget.inputCmd = some c → c ≤ ie)

/-- R56: the split of an amount between two caps. -/
def Obligations.SplitFillsTheCaps : Prop :=
  ∀ P share capA capB : Nat, share ≤ 1024 →
    let w := splitAmount P share capA capB
    w.pA ≤ capA ∧ w.pB ≤ capB ∧ w.pA + w.pB + w.r = P ∧
    (P ≤ capA + capB → w.r = 0) ∧
    (capA + capB < P → w.pA = capA ∧ w.pB = capB ∧ w.r = P - capA - capB) ∧
    (P * share / 1024 ≤ capA → P - P * share / 1024 ≤ capB → w.pA = P * share / 1024 ∧ w.pB = P - P * share / 1024) ∧
    (capA < P * share / 1024 → w.pA = capA) ∧
    (P * share / 1024 ≤ capA → capB < P - P * share / 1024 → w.pA = min capA (P - capB)) ∧
    (share = 1024 → w.pA = min P capA) ∧ (share = 0 → w.pB = min P capB)

/-- The commands of the cells from their net powers: cell A's rounds toward zero; cell B's carries the flex loss worked once, added to
a discharge and taken off a charge; a voltage of 0 gives 0 (R58 to R60). -/
def Obligations.CommandsFollowNetPower : Prop :=
  ∀ (p v rh : Nat),
    let loss := p * 1000 / v * (p * 1000 / v) * rh / 1000000
    commandA p 0 = 0 ∧ commandB p 0 rh = 0 ∧ commandB (-p) 0 rh = 0 ∧ commandB 0 v rh = 0 ∧
    (0 < v → commandA p v = ((p * 1000 / v : Nat) : Int) ∧ commandA (-p) v = -((p * 1000 / v : Nat) : Int) ∧
      (0 < p → commandB (-p) v rh = -(((p + loss) * 1000 / v : Nat) : Int) ∧
        commandB p v rh = (((p - loss) * 1000 / v : Nat) : Int)))

/-- The FOLD line: a new level starts the 50 ms wait anew, the fold state's own level stops it, and at its end the fold state
takes the line's level, a change requesting a pass (R37). That the expiry has no effect while no wait runs, or with time remaining, is
the model's choice (log 4). -/
def Obligations.FoldStateFollowsASettledLine : Prop :=
  ∀ s : State,
    (∀ high : Bool, high ≠ s.budget.foldHigh →
      exec (.foldLevelChange high) s = .next
        { s with
          budget :=
            { s.budget with
              foldHigh := high
              foldWait := if (high = true ↔ s.budget.fold = .folded) then none else some 50 } }) ∧
    exec (.foldLevelChange s.budget.foldHigh) s = .next s ∧
    (s.budget.foldWait = some 0 →
      let u : State :=
        { s with
          budget := { s.budget with fold := if s.budget.foldHigh then .folded else .opened, foldWait := none } }
      exec .foldSettleExpiry s = .next (if u.budget.fold = s.budget.fold then u else withRequest u)) ∧
    (s.budget.foldWait ≠ some 0 → exec .foldSettleExpiry s = .next s)

/-! ### The limit set -/

/-- SET_LIMIT of a single item stores the value clamped to the item's range, DONE_CLAMPED where the clamp altered it; no other
item moves, but that EQ_START lowers an EQ_STOP that is left above EQ_START − 10. Storing the value held hands nothing on; a change
requests a pass, and is handed on as R162 says: a ceiling or DEFAULT_I to the ports, a capacity to its count, CABLE_PREFERRED to
the arbiter, which opens the active switch and goes to CHANGEOVER where it is ACTIVE on the port no longer preferred and the
newly preferred one is eligible, and any other item to nothing (R80, R150, R160, R162). -/
def Obligations.SetLimitStoresAnItemWithinItsRange : Prop :=
  ∀ (s : State) (e : ItemRow) (v2 v1 v0 : Byte), e ∈ itemRows → takesFrame s → limitsOk s.lim →
    (e.lockable = true → s.locked = false) →
    let v := signed3 v2 v1 v0
    let w := min (e.hi s.lim : Int) (max e.lo v)
    ∃ u : State,
      exec (.setLimit [e.id, 0, v2, v1, v0]) s = .next (answered u (if w = v then .done else .doneClamped) []) ∧
      (e.value u.lim : Int) = w ∧
      (∀ f ∈ itemRows, f.id ≠ e.id →
        f.value u.lim = if e.id = 0x29 ∧ f.id = 0x2A then min s.lim.eqStop (u.lim.eqStart - 10) else f.value s.lim) ∧
      u.lim.zoneEdges = s.lim.zoneEdges ∧ u.lim.derate = s.lim.derate ∧ u.lim.profile = s.lim.profile ∧
      u.lim.rest = s.lim.rest ∧
      (u.lim = s.lim → u = afterEdges s) ∧
      (u.lim ≠ s.lim →
        let c := withRequest { afterEdges s with lim := u.lim }
        u = (if e.id = 0x17 ∨ e.id = 0x18 ∨ e.id = 0x19 then reevaluateBoth c
          else if e.id = 0x1A then (match readingOf s .A with
            | some r => withCount .A (r.count * u.lim.cap.a / s.lim.cap.a) c
            | none => c)
          else if e.id = 0x1B then (match readingOf s .B with
            | some r => withCount .B (r.count * u.lim.cap.b / s.lim.cap.b) c
            | none => c)
          else if e.id = 0x30 then
            let preferred : PortId := if u.lim.cablePreferred = 1 then .cable else .coil
            let other : PortId := if u.lim.cablePreferred = 1 then .coil else .cable
            let q := s.port.get preferred
            if s.arb.st = .active other ∧ q.held.isSome ∧ (q.st = .ready ∨ q.st = .proposed ∨ q.st = .confirming) then
              switchOpened .changeover c
            else c
          else c))

/-- SET_LIMIT of a table's entry: a zone edge and a rest point are clamped between their neighbours, a derating entry to its
column's range, an acceptance profile entry by its rounding and ordering; only that entry is stored. A change requests a pass, and one
of the acceptance profile has both ports re-evaluated (R79, R81, R85, R133, R160, R162). -/
def Obligations.SetLimitStoresATableEntry : Prop :=
  ∀ s : State, takesFrame s → limitsOk s.lim →
    let stores := fun (args : List Byte) (clamped : Bool) (l : Limits) (handOn : State → State) =>
      exec (.setLimit args) s = .next (answered
        (if l = s.lim then afterEdges s else handOn (withRequest { afterEdges s with lim := l }))
        (if clamped then .doneClamped else .done) [])
    (s.locked = false → ∀ (k : Fin 4) (v2 v1 v0 : Byte),
      let v := signed3 v2 v1 v0
      let lo := if h : k.val = 0 then -30 else s.lim.zoneEdges[k.val - 1] + 5
      let hi := if h : k.val = 3 then 70 else s.lim.zoneEdges[k.val + 1] - 5
      let w := min hi (max lo v)
      stores [0x14, BitVec.ofNat 8 k.val, v2, v1, v0] (w ≠ v) { s.lim with zoneEdges := s.lim.zoneEdges.set k w } id) ∧
    (s.locked = false → ∀ (z : Fin 5) (c : Fin 3) (v2 v1 v0 : Byte),
      let v := signed3 v2 v1 v0
      let w := min (if c = 1 then 300 else 256) (max 0 v)
      stores [0x15, BitVec.ofNat 8 (z.val * 16 + c.val), v2, v1, v0] (w ≠ v)
        { s.lim with derate := withDerate s.lim.derate z c w.toNat } id) ∧
    (s.locked = false → ∀ (k : Fin 4) (l1 l0 h1 h0 i1 i0 : Byte),
      let lo := min 16000 (max 4000 (word2 l1 l0)) / 20 * 20
      let hi := min 16000 (max 4000 (word2 h1 h0)) / 20 * 20
      let cur := if word2 i1 i0 = 0 then 0 else min 5000 (max 100 (word2 i1 i0)) / 10 * 10
      let w : ProfileEntry := ⟨lo, if hi < lo then lo else hi, cur⟩
      stores [0x16, BitVec.ofNat 8 (k.val + 1), l1, l0, h1, h0, i1, i0] (w ≠ ⟨word2 l1 l0, word2 h1 h0, word2 i1 i0⟩)
        { s.lim with profile := s.lim.profile.set k w } reevaluateBoth) ∧
    ∀ (k : Fin 11) (v2 v1 v0 : Byte),
      let v := signed3 v2 v1 v0
      let lo : Int := if h : k.val = 0 then 2500 else s.lim.rest[k.val - 1] + 1
      let hi : Int := if h : k.val = 10 then 4600 else s.lim.rest[k.val + 1] - 1
      let w := min hi (max lo v)
      stores [0x1C, BitVec.ofNat 8 k.val, v2, v1, v0] (w ≠ v) { s.lim with rest := s.lim.rest.set k w.toNat } id

/-- LOCK_LIMITS sets the limits lock and does nothing else, and under it SET_LIMIT of a lockable item or entry is refused LOCKED,
whatever the value. An unknown identifier, a non-zero index of a single item or an index outside a table is refused BAD_ARG, locked or
not, to SET_LIMIT and GET_LIMIT alike, as is a SET_LIMIT of five bytes that names ACCEPT_PROFILE or of eight that names any other
item (R160, R161, R163, 10.6). -/
def Obligations.LockedItemsRefuseAWrite : Prop :=
  ∀ s : State, takesFrame s →
    exec (.lockLimits []) s = .next (answered { afterEdges s with locked := true } .done []) ∧
    (s.locked = true → ∀ v2 v1 v0 : Byte,
      (∀ e ∈ itemRows, e.lockable = true → answersOnly (.setLimit [e.id, 0, v2, v1, v0]) s .locked []) ∧
      (∀ k : Fin 4, answersOnly (.setLimit [0x14, BitVec.ofNat 8 k.val, v2, v1, v0]) s .locked [] ∧
        ∀ h2 h1 h0 : Byte,
          answersOnly (.setLimit [0x16, BitVec.ofNat 8 (k.val + 1), v2, v1, v0, h2, h1, h0]) s .locked []) ∧
      (∀ (z : Fin 5) (c : Fin 3),
        answersOnly (.setLimit [0x15, BitVec.ofNat 8 (z.val * 16 + c.val), v2, v1, v0]) s .locked [])) ∧
    (∀ id idx v2 v1 v0 : Byte,
      (id = 0 ∨ 0x31 < id.toNat ∨ (id ≠ 0x14 ∧ id ≠ 0x15 ∧ id ≠ 0x16 ∧ id ≠ 0x1C ∧ idx ≠ 0) ∨
        (id = 0x14 ∧ 3 < idx.toNat) ∨ (id = 0x15 ∧ (4 < idx.toNat / 16 ∨ 2 < idx.toNat % 16)) ∨ (id = 0x1C ∧ 10 < idx.toNat) ∨
        (id = 0x16 ∧ (idx = 0 ∨ 4 < idx.toNat))) →
      answersOnly (.setLimit [id, idx, v2, v1, v0]) s .badArg [] ∧ answersOnly (.getLimit [id, idx]) s .badArg [] ∧
        ∀ h2 h1 h0 : Byte, answersOnly (.setLimit [id, idx, v2, v1, v0, h2, h1, h0]) s .badArg []) ∧
    ∀ id idx v2 v1 v0 h2 h1 h0 : Byte,
      answersOnly (.setLimit [0x16, idx, v2, v1, v0]) s .badArg [] ∧
      (id ≠ 0x16 → answersOnly (.setLimit [id, idx, v2, v1, v0, h2, h1, h0]) s .badArg [])

/-- GET_LIMIT reports the stored value, the range in force, the default, whether the entry is lockable and whether the lock is set, in
13 bytes, and in 21 for an acceptance profile entry, whose imax is reported with the ends 0 and 5,000 (the model's reading, log 8);
nothing changes (R163, R172, 10.6). That bits 7..2 of the flags byte are 0 is the model's choice (log 28). -/
def Obligations.GetLimitReportsTheEntry : Prop :=
  ∀ s : State, takesFrame s → limitsOk s.lim →
    let reports := fun (id idx : Byte) (v lo hi d : Int) (lockable : Bool) =>
      ∃ p, answersOnly (.getLimit [id, idx]) s .done p ∧ p.length = 13 ∧ signedAt p 0 3 = v ∧ signedAt p 3 3 = lo ∧
        signedAt p 6 3 = hi ∧ signedAt p 9 3 = d ∧ fieldAt p 12 1 = lockable.toNat * 2 + s.locked.toNat
    (∀ e ∈ itemRows, reports e.id 0 (e.value s.lim) e.lo (e.hi s.lim) e.dflt e.lockable) ∧
    (∀ k : Fin 4, reports 0x14 (BitVec.ofNat 8 k.val) s.lim.zoneEdges[k]
      (if h : k.val = 0 then -30 else s.lim.zoneEdges[k.val - 1] + 5) (if h : k.val = 3 then 70 else s.lim.zoneEdges[k.val + 1] - 5)
      #v[0, 15, 45, 55][k] true) ∧
    (∀ (z : Fin 5) (c : Fin 3), reports 0x15 (BitVec.ofNat 8 (z.val * 16 + c.val)) (derateAt s.lim.derate z c) 0
      (if c = 1 then 300 else 256)
      #v[#v[0, 0, 64], #v[128, 0, 192], #v[256, 0, 256], #v[128, 100, 192], #v[0, 0, 128]][z][c] true) ∧
    (∀ k : Fin 11, reports 0x1C (BitVec.ofNat 8 k.val) s.lim.rest[k]
      (if h : k.val = 0 then 2500 else (s.lim.rest[k.val - 1] + 1 : Nat)) (if h : k.val = 10 then 4600 else s.lim.rest[k.val + 1] - 1)
      #v[3000, 3450, 3580, 3650, 3700, 3750, 3820, 3900, 4000, 4120, 4380][k] false) ∧
    ∀ k : Fin 4, ∃ p, answersOnly (.getLimit [0x16, BitVec.ofNat 8 (k.val + 1)]) s .done p ∧ p.length = 21 ∧
      fieldAt p 0 2 = s.lim.profile[k].vlo ∧ fieldAt p 2 2 = s.lim.profile[k].vhi ∧ fieldAt p 4 2 = s.lim.profile[k].imax ∧
      fieldAt p 6 2 = [4400, 8400, 11400, 14400].getD k.val 0 ∧ fieldAt p 8 2 = [5600, 9600, 12600, 15600].getD k.val 0 ∧
      fieldAt p 10 2 = [3000, 3000, 2250, 1800].getD k.val 0 ∧ fieldAt p 12 2 = 4000 ∧ fieldAt p 14 2 = 16000 ∧
      fieldAt p 16 2 = 0 ∧ fieldAt p 18 2 = 5000 ∧ fieldAt p 20 1 = 2 + s.locked.toNat

/-! ### Reads of the link and the condition unit -/

/-- NOP is DONE with an empty payload. READ_BUDGET answers the published figures with the commands in force, the live granted sum, the
hinge resistance, the fold state and the pass-requested mark, packed in 32 bytes. READ_INPUT answers the port record packed in 32 bytes:
its state, whether it is active, the die zone, Vin, Ie, the held contract, the proposal and its offers. Nothing changes (R50, R144,
R157, R170, R174). That the budget fields are taken down the left column pair of their table and then down the right is the model's
choice (log 32). That the fields of an input command, a held contract and a proposal that are absent are sent as 0 is the model's
choice (log 28). -/
def Obligations.PackedReadsReportTheBlock : Prop :=
  ∀ s : State, takesFrame s →
    let twos := fun (w : Nat) (v : Int) => (v % 2 ^ w).toNat
    let volt := fun v : Nat => (v - 4000) / 20
    answersOnly (.nop []) s .done [] ∧
    (∃ p, answersOnly (.readBudget []) s .done p ∧ p.length = 32 ∧
      let b := s.budget.pub
      bitsOfBytes p =
        bitsOf 16 b.S ++ bitsOf 15 b.dA ++ bitsOf 15 b.dB ++ bitsOf 13 b.lossMax ++ bitsOf 13 b.M ++ bitsOf 11 b.H ++ bitsOf 16 b.U ++
        bitsOf 17 b.L ++ bitsOf 17 (grantedSum s) ++ [decide (b.N < 0)] ++ bitsOf 16 b.N.natAbs ++ bitsOf 15 b.pA ++
        bitsOf 15 b.pB ++ bitsOf 14 (twos 14 s.budget.cmd.a) ++ bitsOf 14 (twos 14 s.budget.cmd.b) ++
        [s.budget.inputCmd.isSome] ++ bitsOf 13 (s.budget.inputCmd.getD 0) ++ bitsOf 8 b.rh ++ [decide (b.fold = .opened)] ++
        [s.budget.mark] ++
        bitsOf 2 (match b.eq with
          | some (.pending, _) => 1
          | some (.granted, _) => 2
          | some (.waiting _, _) => 3
          | some (.ended _, _) => 0
          | none => 0) ++
        [match b.eq with | some (_, some .bToA) => true | _ => false] ++ bitsOf 5 b.shed ++ bitsOf 5 b.granted ++ List.replicate 11 false) ∧
    ∀ port : PortId, (s.port.get port).offers.length ≤ 6 →
      ∃ p, answersOnly (.readInput [match port with | .cable => 0 | .coil => 1]) s .done p ∧ p.length = 32 ∧
        let q := s.port.get port
        let slot := fun (o : Option Offer) => match o with
          | none => List.replicate 29 false
          | some (.fixed v i) => bitsOf 10 (volt v) ++ bitsOf 10 1023 ++ bitsOf 9 (i / 10)
          | some (.range lo hi i) => bitsOf 10 (volt lo) ++ bitsOf 10 (volt hi) ++ bitsOf 9 (i / 10)
        bitsOfBytes p =
          bitsOf 4 (match q.st with
            | .detached => 0
            | .detecting => 1
            | .proposed => 2
            | .confirming => 3
            | .ready => 4
            | .isolated => 5
            | .rejected .noCommon => 6
            | .rejected .unqualifiedDefault => 7
            | .rejected .outOfWindow => 8
            | .rejected .overvoltage => 9) ++
          [decide (s.arb.st = .active port)] ++ [s.dieHot] ++ bitsOf 15 q.vin ++ bitsOf 13 q.ie ++
          (match q.held with
            | none => List.replicate 23 false
            | some ⟨v, i, .negotiated o⟩ => bitsOf 4 o ++ bitsOf 10 (volt v) ++ bitsOf 9 (i / 10)
            | some ⟨_, i, .defaulted⟩ => bitsOf 4 7 ++ List.replicate 7 false ++ bitsOf 12 i
            | some ⟨_, i, .fallback⟩ => bitsOf 4 8 ++ List.replicate 7 false ++ bitsOf 12 i) ++
          (match q.prop with
            | none => List.replicate 24 false
            | some c => bitsOf 3 c.offer ++ bitsOf 2 (c.entry - 1) ++ bitsOf 10 (volt c.v) ++ bitsOf 9 (c.i / 10)) ++
          slot q.offers[0]? ++ slot q.offers[1]? ++ slot q.offers[2]? ++ slot q.offers[3]? ++ slot q.offers[4]? ++
          slot q.offers[5]? ++ [false]

/-- READ_CELL answers 26 bytes: the readings, zone, charge count and state of charge where the cell has had a sample and zeros before,
the data state, capacity, discharge limit, branch, phase, charge ceiling and the command in force; nothing changes (R87, R174).
That the charge ceiling follows a written charge fraction at once is the model's choice (log 30). -/
def Obligations.ReadCellReportsTheCell : Prop :=
  ∀ (s : State) (x : Cell), takesFrame s → countsOk s → readingsOk s → limitsOk s.lim → commandsOk s →
    s.budget.pub.disLim.get x ≤ 6000 → s.budget.pub.chgCeil.get x ≤ 6000 →
    ∃ p, answersOnly (.readCell [match x with | .A => 0 | .B => 1]) s .done p ∧ p.length = 26 ∧
      fieldAt p 0 1 = (match x with | .A => 0 | .B => 1) ∧
      (fieldAt p 1 1).testBit 7 = (readingOf s x).isSome ∧
      (fieldAt p 1 1).testBit 6 = ((readingOf s x).isSome && (s.mon.get x).lastFailed) ∧
      (fieldAt p 1 1).testBit 5 = (s.mon.get x).estimated ∧
      fieldAt p 2 1 = (match x, s.hinge.dataState with
        | .A, _ => 1
        | .B, .awaiting => 0
        | .B, .live => 1
        | .B, .suspect => 2
        | .B, .stale => 3
        | .B, .degraded => 4) ∧
      (readingOf s x = none → p.drop 3 = List.replicate 13 0 ++ p.drop 16) ∧
      (∀ r, readingOf s x = some r →
        (fieldAt p 1 1).testBit 4 = r.farOt ∧ fieldAt p 3 2 = r.v ∧ signedAt p 5 2 = r.i ∧ signedAt p 7 1 = r.t ∧
        fieldAt p 8 1 = (match r.zone with | .cold => 0 | .cool => 1 | .normal => 2 | .warm => 3 | .hot => 4) ∧
        fieldAt p 9 5 = r.count ∧ fieldAt p 14 2 = r.count * 1000 / (s.lim.cap.get x * 3600000)) ∧
      fieldAt p 16 2 = s.lim.cap.get x ∧ fieldAt p 18 2 = idis s x ∧
      fieldAt p 20 1 / 64 = (match branchState s x with
        | .closed => 0
        | .chargeOnly => 1
        | .openFault => 2
        | .openIsolated => 3) ∧
      (fieldAt p 20 1).testBit 3 = (s.br.get x).overcurrent ∧ (fieldAt p 20 1).testBit 2 = (s.br.get x).chgOvercurrent ∧
      (fieldAt p 20 1).testBit 1 = (s.br.get x).overtemp ∧ (fieldAt p 20 1).testBit 0 = (s.br.get x).cutoff ∧
      fieldAt p 21 1 = (match (s.chg.get x).phase with
        | .off => 0x00
        | .precharge => 0x10
        | .fast => 0x20
        | .taper => 0x30
        | .full => 0x40
        | .hold => 0x50
        | .fault .overvoltage => 0x61
        | .fault .prechargeTimeout => 0x62
        | .fault .chargeTimeout => 0x63) ∧
      fieldAt p 22 2 = ichg s x ∧ signedAt p 24 2 = s.budget.cmd.get x

/-- READ_CONDITIONS answers the latched flags, the masks, the enables and the group summaries, and clears the flags alone; SET_MASKS
stores the masks and enables of its bytes (the bits above bit 25 of the masks and above bit 1 of the enables are not read, the model's
choice, log 7); READ_COUNTERS answers the eight counters in order and zeroes them (R166, R167, R168, R172). That bits 7..2 of the
enables byte are sent as 0 is the model's choice (log 28). -/
def Obligations.ConditionCommandsReportAndClear : Prop :=
  ∀ s : State, takesFrame s →
    (∃ p, exec (.readConditions []) s = .next
        (answered { afterEdges s with cond := { s.cond with latched := 0 } } .done p) ∧ p.length = 10 ∧
      fieldAt p 0 4 = s.cond.latched.toNat ∧ fieldAt p 4 4 = s.cond.masks.toNat ∧
      fieldAt p 8 1 = s.cond.master.toNat * 2 + s.cond.recordAttn.toNat ∧
      ∀ g ∈ [(7, 0x000000F#26), (5, 0x0000FF0#26), (3, 0x03FF000#26), (1, 0x3C00000#26)],
        (fieldAt p 9 1).testBit g.1 = (s.cond.latched &&& g.2 != 0) ∧
        (fieldAt p 9 1).testBit (g.1 - 1) = (s.cond.latched &&& g.2 &&& ~~~s.cond.masks != 0)) ∧
    (∀ m3 m2 m1 m0 e : Byte,
      exec (.setMasks [m3, m2, m1, m0, e]) s = .next (answered
        { afterEdges s with
          cond :=
            { s.cond with
              masks := BitVec.ofNat 26 (m3.toNat * 16777216 + m2.toNat * 65536 + m1.toNat * 256 + m0.toNat)
              master := e.getLsbD 1, recordAttn := e.getLsbD 0 } }
        .done [])) ∧
    (countersOk s →
      ∃ p, exec (.readCounters []) s = .next
          (answered { afterEdges s with cond := { s.cond with cnt := ⟨0, 0, 0, 0, 0, 0, 0, 0⟩ } } .done p) ∧
        p.map BitVec.toNat = [s.cond.cnt.frameCheck, s.cond.cnt.framesShort, s.cond.cnt.framesTimeout, s.cond.cnt.farNoReply,
          s.cond.cnt.farBadReply, s.cond.cnt.farCollision, s.cond.cnt.recordsShed, s.cond.cnt.overdraws])

/-! ### Ports and contracts -/

/-- OFFERS keeps the valid entries in order, DONE_CLAMPED where it drops some, and BAD_ARG where none is left; then it acts by
the port's state: refused in DETACHED and in every REJECTED but NO_COMMON, stored alone in ISOLATED, and otherwise selection
decides the port, its change going on by the port step (R134, R137, R172). That the held contract is compared first and that a
repeated no result latches again is the model's reading (log 21). -/
def Obligations.OffersDecideByPortState : Prop :=
  ∀ (s : State) (p : PortId) (os : List Offer), takesFrame s → 1 ≤ os.length → os.length ≤ 6 → os.all carriedOffer →
    let row := Instr.offers ((match p with | .cable => 0 | .coil => 1) :: os.flatMap offerBytes)
    let kept := os.filter validOffer
    let out : Outc := if kept = os then .done else .doneClamped
    let q := s.port.get p
    let takes := fun (w : PortStep) => exec row s = .next (answered (stepPort p w (afterEdges s)) out [])
    (kept = [] → answersOnly row s .badArg []) ∧
    (kept ≠ [] →
      (q.st = .detached ∨ q.st = .rejected .unqualifiedDefault ∨ q.st = .rejected .outOfWindow ∨
        q.st = .rejected .overvoltage → answersOnly row s .wrongState []) ∧
      (q.st = .isolated → exec row s = .next
        (answered { afterEdges s with port := s.port.set p { q with offers := kept } } out [])) ∧
      (q.st = .detecting ∨ q.st = .proposed ∨ q.st = .confirming ∨ q.st = .ready ∨ q.st = .rejected .noCommon →
        (selection (portCeiling s p) s.lim kept = none →
          takes ⟨{ q with st := .rejected .noCommon, offers := kept, held := none, prop := none, ie := 0, timer := none },
            [.contractRejected]⟩) ∧
        (∀ r, selection (portCeiling s p) s.lim kept = some r →
          (∀ h, q.held = some h → h.v = r.v → h.i = r.i →
            takes ⟨{ q with
              st := .ready, offers := kept, prop := none, timer := none, held := some ⟨r.v, r.i, .negotiated r.offer⟩ }, []⟩) ∧
          ((∀ h, q.held = some h → ¬(h.v = r.v ∧ h.i = r.i)) →
            ((q.st = .proposed ∨ q.st = .confirming) ∧ (∃ c, q.prop = some c ∧ c.v = r.v ∧ c.i = r.i) →
              takes ⟨{ q with offers := kept }, []⟩) ∧
            (¬((q.st = .proposed ∨ q.st = .confirming) ∧ ∃ c, q.prop = some c ∧ c.v = r.v ∧ c.i = r.i) →
              takes ⟨{ q with st := .proposed, offers := kept, prop := some r, timer := some 1000 }, [.contractProposed]⟩)))))

/-- Selection gives the best candidate of the stored offers and the used acceptance entries under the ceiling, and none exactly where
there is no candidate (R135). -/
def Obligations.SelectionTakesTheBestCandidate : Prop :=
  ∀ (P : Nat) (l : Limits) (offers : List Offer),
    (∀ b, selection P l offers = some b → isCandidate P l offers b ∧ ∀ c, isCandidate P l offers c → losesTo c b) ∧
    (selection P l offers = none → ∀ c, ¬isCandidate P l offers c)

/-- APPLIED takes a PROPOSED port to CONFIRMING with the verify window at 200 ms, and is refused WRONG_STATE in every other state.
ISOLATE on takes a port out of service without its contracts, and off brings it back by selection or by detection; in the states in
which R143 has nothing to change it is DONE, or WRONG_STATE where R143 says so (R138, R143). -/
def Obligations.AppliedAndIsolateActByPortState : Prop :=
  ∀ (s : State) (p : PortId), takesFrame s →
    let b : Byte := match p with | .cable => 0 | .coil => 1
    let q := s.port.get p
    let takes := fun (row : Instr) (w : PortStep) => exec row s = .next (answered (stepPort p w (afterEdges s)) .done [])
    (q.st = .proposed → takes (.applied [b]) ⟨{ q with st := .confirming, timer := some 200 }, []⟩) ∧
    (q.st ≠ .proposed → answersOnly (.applied [b]) s .wrongState []) ∧
    (q.st = .rejected .overvoltage → answersOnly (.isolate [b, 0]) s .wrongState []) ∧
    (q.st = .rejected .overvoltage ∨ q.st = .detached → answersOnly (.isolate [b, 1]) s .wrongState []) ∧
    (q.st = .isolated → answersOnly (.isolate [b, 1]) s .done []) ∧
    (q.st ≠ .isolated → q.st ≠ .rejected .overvoltage → answersOnly (.isolate [b, 0]) s .done []) ∧
    (q.st ≠ .isolated → q.st ≠ .rejected .overvoltage → q.st ≠ .detached →
      takes (.isolate [b, 1]) ⟨{ q with st := .isolated, held := none, prop := none, ie := 0, timer := none }, []⟩) ∧
    (q.st = .isolated →
      (q.offers = [] → takes (.isolate [b, 0]) ⟨{ q with st := .detecting, timer := some 500 }, []⟩) ∧
      (q.offers ≠ [] → selection (portCeiling s p) s.lim q.offers = none →
        takes (.isolate [b, 0])
          ⟨{ q with st := .rejected .noCommon, held := none, prop := none, ie := 0, timer := none }, [.contractRejected]⟩) ∧
      (∀ r, q.offers ≠ [] → selection (portCeiling s p) s.lim q.offers = some r →
        takes (.isolate [b, 0]) ⟨{ q with st := .proposed, prop := some r, timer := some 1000 }, [.contractProposed]⟩))

/-- A sample of an input voltage saturates at 0..20,000 mV, steps the attach run in DETACHED or the detach run elsewhere, then
the overvoltage run, and in CONFIRMING it is tested against the proposal; each run that reaches its end acts within the sample,
and as its own row (R130, R131, R138, R151). The reading is the row's operand, and a run's row acts by itself (the model's
choices, logs 4 and 19). -/
def Obligations.InputSamplesStepTheRuns : Prop :=
  ∀ (s : State) (p : PortId) (vin : Int),
    let q := { s.port.get p with vin := (min 20000 (max 0 vin)).toNat }
    let attached := fun q : Port => { q with st := .detecting, attachRun := 0, detachRun := 0, timer := some 500 }
    let detached := fun q : Port =>
      { q with
        st := .detached, offers := [], held := none, prop := none, ie := 0, timer := none, attachRun := 0, detachRun := 0
        ovRun := 0 }
    let tripped := fun q : Port =>
      { q with st := .rejected .overvoltage, held := none, prop := none, ie := 0, timer := none, ovRun := 0 }
    let a : Port × List Condition :=
      if q.st = .detached then
        if q.vin < 4000 then ({ q with attachRun := 0 }, [])
        else if 2 ≤ q.attachRun then (attached q, [.inputAttach])
        else ({ q with attachRun := q.attachRun + 1 }, [])
      else if 3500 ≤ q.vin then ({ q with detachRun := 0 }, [])
      else if 2 ≤ q.detachRun then (detached q, [.inputDetach])
      else ({ q with detachRun := q.detachRun + 1 }, [])
    let q1 := a.1
    let ref := match q1.held, q1.prop with
      | some h, some c => max h.v c.v
      | some h, none => h.v
      | none, some c => c.v
      | none, none => 16500
    let b : Port × List Condition :=
      if q1.st = .detached ∨ q1.st = .rejected .overvoltage then (q1, [])
      else if ref * 11 < q1.vin * 10 ∧ 1 ≤ q1.ovRun then (tripped q1, [.inputOvervoltage])
      else
        let q2 := { q1 with ovRun := if ref * 11 < q1.vin * 10 then 1 else 0 }
        match q1.st, q1.prop with
        | .confirming, some c =>
          if ((q1.vin - c.v) + (c.v - q1.vin)) * 20 ≤ c.v then
            ({ q2 with
              st := .ready, held := some ⟨c.v, c.i, .negotiated c.offer⟩, prop := none, timer := none
              ie := min c.i (portCeiling s p * 1000 / c.v / 10 * 10) }, [.contractReady])
          else (q2, [])
        | _, _ => (q2, [])
    exec (.inputSample p vin) s = .next
      (stepPort p ⟨b.1, a.2 ++ b.2⟩ { s with slots := { s.slots with input := s.slots.input.set p 10 } }) ∧
    ((s.port.get p).st = .detached →
      exec (.attachRun p) s = .next (stepPort p ⟨attached (s.port.get p), [.inputAttach]⟩ s) ∧
      exec (.detachRun p) s = .next s ∧ exec (.inputOvervoltageRun p) s = .next s) ∧
    ((s.port.get p).st ≠ .detached →
      exec (.attachRun p) s = .next s ∧
      exec (.detachRun p) s = .next (stepPort p ⟨detached (s.port.get p), [.inputDetach]⟩ s) ∧
      exec (.inputOvervoltageRun p) s = .next (if (s.port.get p).st = .rejected .overvoltage then s
        else stepPort p ⟨tripped (s.port.get p), [.inputOvervoltage]⟩ s))

/-- The three port timers: the offer window's expiry in DETECTING makes default classification; the confirm timer's in PROPOSED
drops the proposal, to READY with a held contract and to default classification without; the verify window's in CONFIRMING
decides from the latest Vin. In any other state, and with time remaining, the expiry does not happen (R136, R138). That the row may
come with time remaining is the model's choice (log 4). -/
def Obligations.PortTimersDecideThePort : Prop :=
  ∀ (s : State) (p : PortId),
    let q := s.port.get p
    let top := portCeiling s p * 1000 / 5000 / 10 * 10
    let inWindow := 4400 ≤ q.vin ∧ q.vin ≤ 5600
    let rejected := fun (c : RejCause) => (⟨{ q with
      st := .rejected c, held := none, prop := none, ie := 0, timer := none }, [.contractRejected]⟩ : PortStep)
    let fiveVolts := fun (o : Origin) => (⟨{ q with
      st := .ready, held := some ⟨5000, min s.lim.defaultI top, o⟩, prop := none, ie := min s.lim.defaultI top
      timer := none }, [.contractReady]⟩ : PortStep)
    let qualified := ∃ a ∈ s.lim.profile.toList, a.imax ≠ 0 ∧ a.vlo ≤ 5000 ∧ 5000 ≤ a.vhi ∧ s.lim.defaultI ≤ a.imax
    let goes := fun (row : Instr) (w : PortStep) => exec row s = .next (stepPort p w s)
    let classifies := fun (row : Instr) =>
      (¬inWindow → goes row (rejected .outOfWindow)) ∧ (inWindow → ¬qualified → goes row (rejected .unqualifiedDefault)) ∧
        (inWindow → qualified → goes row (fiveVolts .defaulted))
    (q.st = .detecting → q.timer = some 0 → classifies (.offerWindowExpiry p)) ∧
    (q.st ≠ .detecting ∨ q.timer ≠ some 0 → exec (.offerWindowExpiry p) s = .next s) ∧
    (q.st = .proposed → q.timer = some 0 → (q.held = none → classifies (.confirmTimerExpiry p)) ∧
      (q.held ≠ none → goes (.confirmTimerExpiry p) ⟨{ q with st := .ready, prop := none, timer := none }, []⟩)) ∧
    (q.st ≠ .proposed ∨ q.timer ≠ some 0 → exec (.confirmTimerExpiry p) s = .next s) ∧
    (q.st = .confirming → q.timer = some 0 →
      let near := ∃ h, q.held = some h ∧ ((q.vin - h.v) + (h.v - q.vin)) * 20 ≤ h.v
      (near → goes (.verifyWindowExpiry p) ⟨{ q with st := .ready, prop := none, timer := none }, []⟩) ∧
      (¬near → inWindow → goes (.verifyWindowExpiry p) (fiveVolts .fallback)) ∧
      (¬near → ¬inWindow → goes (.verifyWindowExpiry p) (rejected .outOfWindow))) ∧
    (q.st ≠ .confirming ∨ q.timer ≠ some 0 → exec (.verifyWindowExpiry p) s = .next s)

/-! ### Arbiter and die monitor -/

/-- A port step replaces the port's record and latches its conditions; a change of the held voltage or current requests a pass; a gain
or loss of eligibility reaches the arbiter in the same event, which closes from NONE with no break running, waits in CHANGEOVER where
the break runs or the preferred port gains, and opens at the active port's loss (R139, R140, R146 to R148). -/
def Obligations.PortChangeReachesTheArbiter : Prop :=
  ∀ (s : State) (p : PortId) (w : PortStep),
    let old := s.port.get p
    let kept := old.held.map (fun h => (h.v, h.i)) = w.port.held.map fun h => (h.v, h.i)
    let u : State :=
      { s with
        port := s.port.set p w.port
        budget := if kept then s.budget else (withRequest s).budget
        cond := { s.cond with latched := w.conds.foldl (fun f c => f ||| 1#26 <<< c.bit.val) s.cond.latched } }
    let feeds := fun q : Port => q.held.isSome ∧ (q.st = .ready ∨ q.st = .proposed ∨ q.st = .confirming)
    let other : PortId := match p with | .cable => .coil | .coil => .cable
    let preferred : Prop := p = (if s.lim.cablePreferred = 1 then .cable else .coil)
    ((feeds old ↔ feeds w.port) → stepPort p w s = u) ∧
    (¬feeds old → ∀ h, w.port.held = some h → feeds w.port →
      (s.arb.st = .none → s.arb.brk = none → stepPort p w s = switchedTo p h u) ∧
      (s.arb.st = .none → s.arb.brk ≠ none →
        stepPort p w s = withRequest { u with arb := { s.arb with st := .changeover } }) ∧
      (s.arb.st = .active other → preferred → stepPort p w s = switchOpened .changeover u) ∧
      (s.arb.st = .active other → ¬preferred → stepPort p w s = u) ∧
      (s.arb.st = .active p ∨ s.arb.st = .changeover → stepPort p w s = u)) ∧
    (feeds old → ¬feeds w.port →
      (s.arb.st = .active p → feeds (s.port.get other) → stepPort p w s = switchOpened .changeover u) ∧
      (s.arb.st = .active p → ¬feeds (s.port.get other) → stepPort p w s = switchOpened .none u) ∧
      (s.arb.st ≠ .active p → stepPort p w s = u))

/-- The break timer's expiry in CHANGEOVER closes the preferred port if it is eligible, else the other, with CHANGEOVER_DONE,
and goes to NONE where neither is; elsewhere it only stops the timer. A die sample of 110 °C or more in NORMAL moves the zone to
HOT with DIE_HOT, one of 100 °C or less in HOT moves it back, both ports being re-evaluated; any other leaves it (R146, R149,
R152). That a timer which is stopped or has time remaining has no expiry, and that the die reading is the row's operand, are the model's
choices (logs 4 and 19). -/
def Obligations.BreakEndsAndDieZoneMoves : Prop :=
  ∀ s : State,
    let stopped : State := { s with arb := { s.arb with brk := none } }
    let feeds := fun (p : PortId) => (s.port.get p).held.isSome ∧
      ((s.port.get p).st = .ready ∨ (s.port.get p).st = .proposed ∨ (s.port.get p).st = .confirming)
    let first : PortId := if s.lim.cablePreferred = 1 then .cable else .coil
    let second : PortId := if s.lim.cablePreferred = 1 then .coil else .cable
    (s.arb.brk ≠ some 0 → exec .breakTimerExpiry s = .next s) ∧
    (s.arb.brk = some 0 →
      (s.arb.st ≠ .changeover → exec .breakTimerExpiry s = .next stopped) ∧
      (s.arb.st = .changeover →
        (∀ h, (s.port.get first).held = some h → feeds first →
          exec .breakTimerExpiry s = .next (latchedWith 0x200#26 (switchedTo first h stopped))) ∧
        (∀ h, ¬feeds first → (s.port.get second).held = some h → feeds second →
          exec .breakTimerExpiry s = .next (latchedWith 0x200#26 (switchedTo second h stopped))) ∧
        (¬feeds first → ¬feeds second →
          exec .breakTimerExpiry s = .next (withRequest { stopped with arb := ⟨.none, none⟩ })))) ∧
    ∀ t : Int,
      let u : State := { s with slots := { s.slots with die := 10 } }
      (s.dieHot = false → 110 ≤ t →
        exec (.dieSample t) s = .next (reevaluateBoth (latchedWith 0x800#26 { u with dieHot := true }))) ∧
      (s.dieHot = false → t < 110 → exec (.dieSample t) s = .next u) ∧
      (s.dieHot = true → t ≤ 100 → exec (.dieSample t) s = .next (reevaluateBoth { u with dieHot := false })) ∧
      (s.dieHot = true → 100 < t → exec (.dieSample t) s = .next u)

/-- Re-evaluation, of READY, PROPOSED, CONFIRMING and REJECTED(NO_COMMON) alone: Ie is capped by the ceiling, a DEFAULTED or
FALLBACK contract is qualified again or dropped, and stored offers are selected from; a lowered Ie requests a pass. Both ports
are taken, in an order the model leaves open (R142). The order of the ports is left open (log 15); the order of comparisons, and that
a repeated no result latches again, are the model's readings (log 21), and that it does so in a control reset too is its choice (log
31). -/
def Obligations.ReevaluationRequalifiesAndReselects : Prop :=
  ∀ (s : State) (p : PortId),
    let q := s.port.get p
    let top := fun v : Nat => portCeiling s p * 1000 / v / 10 * 10
    let taken := q.st = .ready ∨ q.st = .proposed ∨ q.st = .confirming ∨ q.st = .rejected .noCommon
    let q1 : Port := match q.held with
      | some h => { q with ie := min q.ie (top h.v) }
      | none => q
    let isDefault := fun h : Held => h.origin = .defaulted ∨ h.origin = .fallback
    let q2 : Port := match q.held with
      | some ⟨v, _, .defaulted⟩ =>
        { q1 with held := some ⟨v, min s.lim.defaultI (top 5000), .defaulted⟩, ie := min q1.ie (min s.lim.defaultI (top 5000)) }
      | some ⟨v, _, .fallback⟩ =>
        { q1 with held := some ⟨v, min s.lim.defaultI (top 5000), .fallback⟩, ie := min q1.ie (min s.lim.defaultI (top 5000)) }
      | some ⟨_, _, .negotiated _⟩ => q1
      | none => q1
    let qualified := ∃ a ∈ s.lim.profile.toList, a.imax ≠ 0 ∧ a.vlo ≤ 5000 ∧ 5000 ≤ a.vhi ∧ s.lim.defaultI ≤ a.imax
    let lapsed := (∃ h, q.held = some h ∧ isDefault h) ∧ ¬qualified
    let rejected := fun (c : RejCause) => (⟨{ q with
      st := .rejected c, held := none, prop := none, ie := 0, timer := none }, [.contractRejected]⟩ : PortStep)
    (reevaluateBoth s = reevaluatePort .coil (reevaluatePort .cable s) ∨
      reevaluateBoth s = reevaluatePort .cable (reevaluatePort .coil s)) ∧
    (¬taken → reevaluatePort p s = s) ∧
    (taken → ∃ w : PortStep,
      reevaluatePort p s = (if q1.ie < q.ie ∨ w.port.ie < q.ie then withRequest (stepPort p w s) else stepPort p w s) ∧
      (lapsed → w = rejected .unqualifiedDefault) ∧
      (¬lapsed →
        (q.offers = [] → w = ⟨q2, []⟩) ∧
        (q.offers ≠ [] → selection (portCeiling s p) s.lim q.offers = none → w = rejected .noCommon) ∧
        (∀ r, q.offers ≠ [] → selection (portCeiling s p) s.lim q.offers = some r →
          (∀ h, q2.held = some h → h.v = r.v → h.i = r.i →
            w = ⟨{ q2 with st := .ready, prop := none, timer := none, held := some ⟨r.v, r.i, .negotiated r.offer⟩ }, []⟩) ∧
          ((∀ h, q2.held = some h → ¬(h.v = r.v ∧ h.i = r.i)) →
            ((q.st = .proposed ∨ q.st = .confirming) ∧ (∃ c, q.prop = some c ∧ c.v = r.v ∧ c.i = r.i) → w = ⟨q2, []⟩) ∧
            (¬((q.st = .proposed ∨ q.st = .confirming) ∧ ∃ c, q.prop = some c ∧ c.v = r.v ∧ c.i = r.i) →
              w = ⟨{ q2 with st := .proposed, prop := some r, timer := some 1000 }, [.contractProposed]⟩)))))

/-! ### Resets -/

/-- Power-on reset: every block at its reset values, with the limits at their defaults and unlocked, FIRST_FRAME in the buffer
and the fold wait running at 50 ms. The queue, and the levels of LSEL and FOLD, are not the block's and stay (R27, R31, R37,
R88, R104, R114, R117, R129, R145, R153, R155, R158, R169). The values the spec does not give, and what stays, are the model's
choices (logs 3, 16 and 20). -/
def Obligations.PowerOnResetLeavesTheResetValues : Prop :=
  ∀ s : State, ∃ t, exec .powerOnReset s = .next t ∧
    t = { State.reset with
          pending := s.pending
          link := { State.reset.link with lselHigh := s.link.lselHigh }
          budget := { State.reset.budget with foldHigh := s.budget.foldHigh } } ∧
    (∀ k, recordOf t k = none ∧ (slotOf t k).gen = 0) ∧ t.resv.arrivals = 0 ∧ t.resv.grants = 0 ∧
    t.budget.mark = false ∧ t.budget.passTimer = 20 ∧ t.budget.seq = 0 ∧ t.budget.cmd = ⟨0, 0⟩ ∧ t.budget.inputCmd = none ∧
    t.budget.fold = .folded ∧ t.budget.foldWait = some 50 ∧ t.budget.pub.T = 0 ∧ t.budget.pub.S = 0 ∧
    (∀ x, readingOf t x = none ∧ (t.mon.get x).estimated = false ∧ (t.chg.get x).phase = .off ∧ (t.chg.get x).session = none ∧
      branchState t x = .closed) ∧
    t.hinge.dataState = .awaiting ∧ t.hinge.failRun = 0 ∧ t.hinge.goodRun = 0 ∧ t.load.on = false ∧ t.load.U = 0 ∧
    (∀ p, (t.port.get p).st = .detached ∧ (t.port.get p).offers = [] ∧ (t.port.get p).held = none ∧ (t.port.get p).ie = 0) ∧
    t.arb = ⟨.none, none⟩ ∧ t.dieHot = false ∧ t.cond = ⟨0, 0, true, true, ⟨0, 0, 0, 0, 0, 0, 0, 0⟩⟩ ∧ t.locked = false ∧
    (∀ e ∈ itemRows, e.value t.lim = e.dflt) ∧ t.link.rx = .idle ∧ t.link.buffer = some ⟨0, .firstFrame, []⟩

/-- A control reset, from RSTN once in each low period or from the RESET command: the frame in progress is discarded, the limits
return to their defaults unlocked, each block takes its reset step, the ports are re-evaluated, a pass is requested and
FIRST_FRAME is placed. Cells, data state, figures, ports, arbiter, die zone and slots are kept. RSTN_RISE ends the low period
(R27, R31, R80, R88, R104, R114, R117, R129, R145, R153, R154, R169). That every other timer goes on, and what RSTN bars, are
the model's readings (logs 11, 15 and 17), and that a port REJECTED(NO_COMMON) before and after it latches CONTRACT_REJECTED anew is its
choice (log 31). -/
def Obligations.ControlResetTakesEveryResetStep : Prop :=
  ∀ s : State, commandsOk s →
    let rescaled := fun (m : Monitor) (old new : Nat) => { m with rd := m.rd.map fun r => { r with count := r.count * new / old } }
    let off := fun c : Charge => { c with phase := .off, session := none, ovRun := 0, termRun := 0 }
    let dropped := fun b : Branch =>
      { b with overcurrent := false, chgOvercurrent := false, disRun := 0, chgRun := 0, cutRun := 0 }
    let u : State :=
      { s with
        resv := Table.reset
        mon := ⟨rescaled s.mon.a s.lim.cap.a 2600, rescaled s.mon.b s.lim.cap.b 1900⟩
        chg := ⟨off s.chg.a, off s.chg.b⟩
        br := ⟨dropped s.br.a, dropped s.br.b⟩
        load := { s.load with on := false, U := 0, onRun := 0, offRun := 0 }
        cond := ⟨0, 0, true, true, ⟨0, 0, 0, 0, 0, 0, 0, 0⟩⟩
        lim := Limits.default
        locked := false
        budget := (withRequest s).budget
        link := { s.link with rx := .idle, frameTimer := none, ldo := none, silence := none } }
    let placed := fun v : State => { v with link := { v.link with buffer := some ⟨statusByte v, .firstFrame, []⟩ } }
    (s.link.rstnLow = false →
      exec .rstnLow s = .next (placed (reevaluateBoth { u with link := { u.link with rstnLow := true } }))) ∧
    (s.link.rstnLow = true → exec .rstnLow s = .next s) ∧
    (takesFrame s →
      exec (.reset []) s = .next (placed (reevaluateBoth { u with link := { u.link with lselHigh := true } })) ∧
      ∀ b args, args.length ≤ 31 → answersOnly (.reset (b :: args)) s .badArg []) ∧
    exec .rstnRise s = .next { s with link := { s.link with rstnLow := false } }

/-! ### Cells -/

/-- A sample of cell A saturates, is stored with its zone and count, and goes to charge control and branch protection in the
order the event carries. The count moves by the current over 10 ms within 0..full, and the first count comes from the
rest-voltage table; a new zone requests a pass, and one in place of another latches ZONE_CHANGE_A (R71, R74, R76 to R78, R81 to
R84). That the order and the readings are operands is the model's choice (logs 14 and 19). -/
def Obligations.CellASampleIsStoredAndHandedOn : Prop :=
  ∀ (s : State) (v i t : Int) (order : SlotOrder), limitsOk s.lim →
    let v' := (min 5000 (max 0 v)).toNat
    let i' := min 8000 (max (-8000) i)
    let t' := min 125 (max (-40) t)
    let before := (readingOf s .A).map fun r => r.zone
    let zone := nextZone s.lim.zoneEdges (before.getD .normal) t'
    let u := fun count : Nat =>
      ({ s with
        slots := { s.slots with cellA := 10 }
        mon := { s.mon with a := { s.mon.a with rd := some ⟨v', i', t', false, zone, count⟩ } }
        budget := if before = some zone then s.budget else (withRequest s).budget
        cond := { s.cond with
          latched := if before = none ∨ before = some zone then s.cond.latched else s.cond.latched ||| 0x40000#26 } } : State)
    let goes := fun count : Nat => exec (.cellASample v i t order) s = .next (match order with
      | .chargeFirst => branchSlot .A true (chargeSlot .A true (u count))
      | .branchFirst => chargeSlot .A true (branchSlot .A true (u count)))
    (∀ r, readingOf s .A = some r → goes (min (s.lim.cap.a * 3600000 : Int) (max 0 (r.count + i' * 10))).toNat) ∧
    (readingOf s .A = none →
      (v' < s.lim.rest[0] → goes 0) ∧
      (∀ j : Fin 10, s.lim.rest[j.val] ≤ v' → v' < s.lim.rest[j.val + 1] →
        goes ((100 * j.val + 100 * (v' - s.lim.rest[j.val]) / (s.lim.rest[j.val + 1] - s.lim.rest[j.val])) *
          s.lim.cap.a * 3600)) ∧
      (s.lim.rest[10] ≤ v' → goes (1000 * s.lim.cap.a * 3600)))

/-- Charge control at a slot of a cell that has a record: the target is handed on, the overvoltage run is stepped first, and
then the phase's own tests are made, the hold conditions before the rest; held values are tested for hold alone. The rows of its
runs act as the tests do, and those of its timers where the timer has run out in a phase in which it runs (R89 to R99, R101). That the
rows of the runs act by themselves where their run is counted, that those of the timers may come with time remaining, and that a slot with held values hands the target on too, are the model's choices (logs 4 and 27). -/
def Obligations.ChargeSlotFollowsThePhase : Prop :=
  ∀ (s : State) (x : Cell) (r : Reading), readingOf s x = some r →
    let c := { s.chg.get x with regTarget := targetVolt s x }
    let n := if targetVolt s x + 100 < r.v then c.ovRun + 1 else 0
    let hold := (s.lim.derate.row r.zone).charge = 0 ∨ s.lim.chargeEn.get x = 0 ∨
      (x = .B ∧ (s.hinge.dataState = .awaiting ∨ s.hinge.dataState = .stale ∨ s.hinge.dataState = .degraded)) ∨
      branchState s x = .openFault ∨ branchState s x = .openIsolated
    let active := ∃ p, s.arb.st = .active p
    let fresh : Session := ⟨s.lim.preTimer * 60000, s.lim.fastTimer * 60000⟩
    let recharge := targetVolt s x - s.lim.rechargeDrop
    let is := fun c' : Charge => chargeSlot x true s = withPhase x c' s
    let full := fun (c' : Charge) => latchedWith (cellFlag x 0x1000#26) (withCount x (s.lim.cap.get x * 3600000)
      (withPhase x { c' with phase := .full, session := none, termRun := 0 } s))
    let fault := fun (c' : Charge) (f : ChgFault) => latchedWith (cellFlag x 0x4000#26)
      (withPhase x { c' with phase := .fault f, session := none, ovRun := 0, termRun := 0 } s)
    targetVolt s x = s.lim.chgTarget.get x - (s.lim.derate.row r.zone).reduction ∧
    ((∃ f, c.phase = .fault f) → is c) ∧
    ((∀ f, c.phase ≠ .fault f) → 3 ≤ n → chargeSlot x true s = fault c .overvoltage) ∧
    (n < 3 →
      let c := { c with ovRun := n }
      (c.phase = .off → (active → hold → is c) ∧ (¬active → is c) ∧ (active → ¬hold →
        (r.v < s.lim.preV → is { c with phase := .precharge, session := some fresh }) ∧
        (s.lim.preV ≤ r.v → r.v < recharge → is { c with phase := .fast, session := some fresh }) ∧
        (s.lim.preV ≤ r.v → recharge ≤ r.v → chargeSlot x true s = full c))) ∧
      (c.phase = .precharge ∨ c.phase = .fast ∨ c.phase = .taper → hold → is { c with phase := .hold, termRun := 0 }) ∧
      (c.phase = .precharge → ¬hold → is (if s.lim.preV + 100 ≤ r.v then { c with phase := .fast } else c)) ∧
      (c.phase = .fast → ¬hold → is (if targetVolt s x ≤ r.v then { c with phase := .taper, termRun := 0 } else c)) ∧
      (c.phase = .taper → ¬hold →
        let m := if s.lim.termI.get x ≤ (s.budget.cmd.get x).toNat ∧ r.i < s.lim.termI.get x then c.termRun + 1 else 0
        (m < 3 → is { c with termRun := m }) ∧ (3 ≤ m → chargeSlot x true s = full c)) ∧
      (c.phase = .hold → (hold → is c) ∧ (¬hold →
        (r.v < s.lim.preV → is { c with phase := .precharge }) ∧
        (s.lim.preV ≤ r.v → r.v < recharge → is { c with phase := .fast }) ∧
        (s.lim.preV ≤ r.v → recharge ≤ r.v → chargeSlot x true s = full c))) ∧
      (c.phase = .full → is (if r.v < recharge ∧ ¬hold then { c with phase := .fast, session := some fresh } else c))) ∧
    chargeSlot x false s = withPhase x (if (c.phase = .precharge ∨ c.phase = .fast ∨ c.phase = .taper) ∧ hold then
      { c with phase := .hold, termRun := 0 } else c) s ∧
    exec (.cellOvervoltageRun x) s = .next (match (s.chg.get x).phase with
      | .fault _ => s
      | _ => fault (s.chg.get x) .overvoltage) ∧
    exec (.terminationRun x) s = .next (if (s.chg.get x).phase = .taper then full (s.chg.get x) else s) ∧
    exec (.prechargeTimerExpiry x) s = .next
      (if (s.chg.get x).phase = .precharge ∧ (s.chg.get x).session.map (fun q => q.pre) = some 0 then
        fault (s.chg.get x) .prechargeTimeout else s) ∧
    exec (.fastTimerExpiry x) s = .next
      (if ((s.chg.get x).phase = .fast ∨ (s.chg.get x).phase = .taper) ∧ (s.chg.get x).session.map (fun q => q.fast) = some 0 then
        fault (s.chg.get x) .chargeTimeout else s)

/-- Branch protection at an accepted sample: the runs, items and causes after the tests in the order of the rules; a new cause
latches BRANCH_FAULT and cutoff latches CUTOFF and empties the count; a change of the branch state requests a pass and zeroes a
command it forbids. The rows of the runs act as a run that reaches its end (R105 to R111). That a run at its end returns to 0
while its cause is latched, and that a stored −8,000 mA is the saturated reading that stands above every item, are the model's
readings, and that the rows act by themselves its choice (logs 4, 22 and 26). -/
def Obligations.BranchTestsMoveItemsAndRuns : Prop :=
  ∀ (s : State) (x : Cell) (r : Reading), readingOf s x = some r → (branchState s x).forbids (s.budget.cmd.get x) = false →
    let b := s.br.get x
    let worked := fun (b' : Branch) (mon : PerCell Monitor) (flags : BitVec 26) =>
      ({ s with
        br := s.br.set x b'
        mon := mon
        budget :=
          { (if b'.state = b.state then s.budget else (withRequest s).budget) with
            cmd := if b'.state ≠ b.state ∧ b'.state.forbids (s.budget.cmd.get x) then s.budget.cmd.set x 0 else s.budget.cmd }
        cond := { s.cond with latched := s.cond.latched ||| flags } } : State)
    let emptied := (withCount x 0 s).mon
    let faultFlag := cellFlag x 0x10000#26
    let cutoffFlag := cellFlag x 0x100000#26
    let disOver := s.lim.hardDisI.get x < (-r.i).toNat ∨ r.i ≤ -8000
    let disTrips := disOver ∧ s.lim.hardCount ≤ b.disRun + 1
    let chgOver := ((s.budget.cmd.get x).toNat : Int) + 500 < r.i
    let chgTrips := chgOver ∧ s.lim.hardCount ≤ b.chgRun + 1
    let hot := if 65 ≤ r.t then true else if r.t ≤ 60 then false else b.overtemp
    let oc := b.overcurrent || decide disTrips
    let coc := b.chgOvercurrent || decide chgTrips
    let closed := !b.isolated && !oc && !coc && !hot && !b.cutoff
    let low := if closed && decide (r.v < s.lim.cutoffV) then b.cutRun + 1 else 0
    branchSlot x true s = worked
      { isolated := b.isolated, overcurrent := oc, chgOvercurrent := coc, overtemp := hot
        cutoff := if s.lim.cutoffV + 200 ≤ r.v then false else b.cutoff || decide (3 ≤ low)
        disRun := if disOver then (if disTrips then 0 else b.disRun + 1) else 0
        chgRun := if chgOver then (if chgTrips then 0 else b.chgRun + 1) else 0
        cutRun := if 3 ≤ low then 0 else low }
      (if 3 ≤ low then emptied else s.mon)
      ((if (oc && !b.overcurrent) || (coc && !b.chgOvercurrent) || (hot && !b.overtemp) then faultFlag else 0) |||
        (if 3 ≤ low then cutoffFlag else 0)) ∧
    branchSlot x false s = s ∧
    exec (.dischargeOvercurrentRun x) s = .next
      (worked { b with overcurrent := true, disRun := 0 } s.mon (if b.overcurrent then 0 else faultFlag)) ∧
    exec (.chargeOvercurrentRun x) s = .next
      (worked { b with chgOvercurrent := true, chgRun := 0 } s.mon (if b.chgOvercurrent then 0 else faultFlag)) ∧
    exec (.cutoffRun x) s = .next (if b.state = .closed then
      worked { b with cutoff := true, cutRun := 0 } emptied cutoffFlag else s)

/-- ISOLATE_CELL sets or clears isolation, hiding the other causes; CLEAR_FAULT drops the latched causes with their runs and takes a
faulted phase machine to OFF, and changes nothing where there is none. The branch state is worked from the items, isolation before
the fault causes and these before cutoff; a change of it zeroes a command it forbids and requests a pass (R105, R106, R112,
R113). -/
def Obligations.IsolateCellAndClearFaultMoveTheBranch : Prop :=
  ∀ (s : State) (x : Cell), takesFrame s →
    let b := s.br.get x
    let byte : Byte := match x with | .A => 0 | .B => 1
    let moved := fun (b' : Branch) (u : State) =>
      ({ u with
        br := s.br.set x b'
        budget :=
          { (if b'.state = b.state then u.budget else (withRequest u).budget) with
            cmd := if b'.state ≠ b.state ∧ b'.state.forbids (s.budget.cmd.get x) then s.budget.cmd.set x 0 else s.budget.cmd } } :
        State)
    let faulted := ∃ f, (s.chg.get x).phase = .fault f
    branchState s x = (if b.isolated then .openIsolated
      else if b.overcurrent ∨ b.chgOvercurrent ∨ b.overtemp then .openFault
      else if b.cutoff then .chargeOnly
      else .closed) ∧
    exec (.isolateCell [byte, 1]) s = .next (answered (moved { b with isolated := true } (afterEdges s)) .done []) ∧
    exec (.isolateCell [byte, 0]) s = .next (answered (moved { b with isolated := false } (afterEdges s)) .done []) ∧
    (b.overcurrent = false → b.chgOvercurrent = false → ¬faulted → answersOnly (.clearFault [byte]) s .done []) ∧
    (faulted → exec (.clearFault [byte]) s = .next (answered
      (moved { b with overcurrent := false, chgOvercurrent := false, disRun := 0, chgRun := 0 }
        (withPhase x { s.chg.get x with phase := .off, session := none, termRun := 0 } (afterEdges s))) .done [])) ∧
    (b.overcurrent = true ∨ b.chgOvercurrent = true → ¬faulted → exec (.clearFault [byte]) s = .next (answered
      (moved { b with overcurrent := false, chgOvercurrent := false, disRun := 0, chgRun := 0 } (afterEdges s)) .done []))

/-- A sample of the system load: above L + OD_MARGIN it steps the on-run while overdraw is OFF, at or below L it steps the
off-run while ON, and U follows Pm − L while ON. At OD_COUNT overdraw turns on, latched, counted and with a pass requested, or
off, with a pass requested and U at 0; the two rows act as those ends (R115, R116). That the two rows act on the latest sample
is the model's reading (logs 4 and 6), that the reading is the row's operand and that the slot's count starts again at 10 its choice
(log 19), as is that a change of U while overdraw stays ON requests no pass (log 29). -/
def Obligations.SystemLoadTurnsOverdrawOnAndOff : Prop :=
  ∀ (s : State) (reading : Int),
    let pm := (min 100000 (max 0 reading)).toNat
    let L := grantedSum s
    let u : State := { s with slots := { s.slots with load := 10 } }
    let on := fun (v : State) (pm : Nat) => withRequest
      { v with
        load := ⟨true, min 65535 (pm - L), 0, 0, pm⟩
        cond := { s.cond with
          latched := s.cond.latched ||| 0x4#26
          cnt := { s.cond.cnt with overdraws := oneMore s.cond.cnt.overdraws } } }
    let off := fun (v : State) (pm : Nat) => withRequest { v with load := ⟨false, 0, 0, 0, pm⟩ }
    (s.load.on = false →
      (L + s.lim.odMargin < pm → s.lim.odCount ≤ s.load.onRun + 1 → exec (.systemLoadSample reading) s = .next (on u pm)) ∧
      (L + s.lim.odMargin < pm → s.load.onRun + 1 < s.lim.odCount →
        exec (.systemLoadSample reading) s = .next { u with load := { s.load with onRun := s.load.onRun + 1, pm := pm } }) ∧
      (pm ≤ L + s.lim.odMargin →
        exec (.systemLoadSample reading) s = .next { u with load := { s.load with onRun := 0, pm := pm } }) ∧
      exec .overdrawOn s = .next (on s s.load.pm) ∧ exec .overdrawOff s = .next s) ∧
    (s.load.on = true →
      (pm ≤ L → s.lim.odCount ≤ s.load.offRun + 1 → exec (.systemLoadSample reading) s = .next (off u pm)) ∧
      (pm ≤ L → s.load.offRun + 1 < s.lim.odCount →
        exec (.systemLoadSample reading) s = .next
          { u with load := { s.load with U := 0, offRun := s.load.offRun + 1, pm := pm } }) ∧
      (L < pm → exec (.systemLoadSample reading) s = .next
        { u with load := { s.load with U := min 65535 (pm - L), offRun := 0, pm := pm } }) ∧
      exec .overdrawOff s = .next (off s s.load.pm) ∧ exec .overdrawOn s = .next s)

/-! ### Hinge sense line -/

/-- A failed exchange ends with its outcome counted and the J262's own break begun: cell B's data state moves from LIVE to
SUSPECT, and at the third failure in a row from SUSPECT to STALE with the charge command zeroed, the degraded timer at 500 ms,
FAR_STALE latched; each move requests a pass. The slot goes on with held values, counted by the held current or, STALE or
DEGRADED, by the command (R72, R75, R118 to R123, R126, R170, R175, R176). What the rows do outside an exchange,
the window's expiry with time remaining, and that a line of other than nine whole bytes settles nothing, is the model's choice (logs 4,
18 and 19). -/
def Obligations.FailedExchangeMovesTheLadder : Prop :=
  ∀ s : State,
    let h := s.hinge
    let stale := h.dataState = .suspect ∧ 2 ≤ h.failRun
    let d : DataState := match h.dataState with
      | .live => .suspect
      | .suspect => if 2 ≤ h.failRun then .stale else .suspect
      | .awaiting => .awaiting
      | .stale => .stale
      | .degraded => .degraded
    let cmdB := if stale ∧ 0 < s.budget.cmd.b then 0 else s.budget.cmd.b
    let failed := fun (base : State) (c : Counters) =>
      let u : State :=
        { base with
          hinge :=
            { h with
              exch := .ended, brk := some 100, dataState := d, goodRun := 0
              failRun := if h.dataState = .live then 1 else min 3 (h.failRun + 1)
              degTimer := if stale then some 500 else h.degTimer }
          budget := { (if d = h.dataState then s.budget else (withRequest s).budget) with cmd := ⟨s.budget.cmd.a, cmdB⟩ }
          cond := { s.cond with latched := if stale then s.cond.latched ||| 0x400000#26 else s.cond.latched, cnt := c } }
      match readingOf s .B with
      | none => u
      | some r =>
        let i := if d = .stale ∨ d = .degraded then cmdB else r.i
        let n := (min (s.lim.cap.b * 3600000 : Int) (max 0 (r.count + i * 10))).toNat
        chargeSlot .B false { u with mon := { s.mon with b := ⟨some { r with count := n },
          if d = .stale ∨ d = .degraded then true else s.mon.b.estimated, true⟩ } }
    let collision := { s.cond.cnt with farCollision := oneMore s.cond.cnt.farCollision }
    let badReply := { s.cond.cnt with farBadReply := oneMore s.cond.cnt.farBadReply }
    let noReply := { s.cond.cnt with farNoReply := oneMore s.cond.cnt.farNoReply }
    (h.exch = .ended → exec (.hingeSlot true) s = .next (failed { s with slots := { s.slots with hinge := 10 } } collision)) ∧
    (∀ sent, h.exch = .polling sent →
      exec .pollCollision s = .next (failed s collision) ∧ exec .farBreak s = .next (failed s collision)) ∧
    (∀ left seen, h.exch = .window left seen →
      exec .farBreak s = .next (failed s collision) ∧
      (∀ begun, exec (.replyWindowExpiry begun) s = .next
        (if left = 0 then failed s (if begun || seen then badReply else noReply) else s)) ∧
      (∀ ns : Nat, 220000 * ns ≤ 9000000000 → 9000000000 ≤ 280000 * ns →
        exec (.badReplyFraming (.rate ns)) s = .next { s with hinge := { h with exch := .window left true } }) ∧
      (∀ ns : Nat, 9000000000 < 220000 * ns ∨ 280000 * ns < 9000000000 →
        exec (.badReplyFraming (.rate ns)) s = .next (failed s badReply)) ∧
      (∀ ns : Nat, exec (.badReplyFraming (.lowStop ns)) s = .next (failed s (if ns < 80000 then badReply else collision))) ∧
      (∀ (m : SampleMsg) (o : SlotOrder),
        crc8 [m.timing, m.seq, m.vHi, m.vLo, m.iHi, m.iLo, m.temp, m.flags] ≠ m.check ∨ m.timing ≠ 0x55 ∨ h.lastSeq = some m.seq ∨
          word2 m.vHi m.vLo < 2000 ∨ 4700 < word2 m.vHi m.vLo ∨ m.temp.toInt < -40 ∨ 100 < m.temp.toInt →
        exec (.sample (sampleLine m) o) s = .next (failed s badReply)) ∧
      (∀ line o, line.length / 8 ≠ 9 → exec (.sample line o) s = .next s)) ∧
    (h.exch = .ended → ∀ row ∈ [Instr.pollCollision, .farBreak], exec row s = .next s) ∧
    ((∀ left seen, h.exch ≠ .window left seen) → ∀ begun f line o,
      exec (.replyWindowExpiry begun) s = .next s ∧ exec (.badReplyFraming f) s = .next s ∧ exec (.sample line o) s = .next s)

/-- A SAMPLE that passes every check ends the exchange GOOD: its values and sequence are kept, AWAITING and SUSPECT become LIVE,
and the fifth in a row returns STALE or DEGRADED to LIVE with FAR_RECOVERED; then cell monitor B stores it, with its zone and
count, and hands the slot on (R72, R74, R75, R78, R81 to R84, R120, R122, R125, R126, R176). That the order is an operand is the
model's choice (log 14). -/
def Obligations.GoodSampleIsAcceptedAndStored : Prop :=
  ∀ (s : State) (m : SampleMsg) (order : SlotOrder) (left : Nat) (seen : Bool), limitsOk s.lim →
    s.hinge.exch = .window left seen →
    crc8 [m.timing, m.seq, m.vHi, m.vLo, m.iHi, m.iLo, m.temp, m.flags] = m.check → m.timing = 0x55 →
    s.hinge.lastSeq ≠ some m.seq → 2000 ≤ word2 m.vHi m.vLo → word2 m.vHi m.vLo ≤ 4700 →
    -40 ≤ m.temp.toInt → m.temp.toInt ≤ 100 →
    let h := s.hinge
    let i : Int := (m.iHi ++ m.iLo).toInt
    let i' := min 8000 (max (-8000) i)
    let f : FarSample := ⟨word2 m.vHi m.vLo, i, m.temp.toInt, m.flags.getLsbD 0⟩
    let mending := h.dataState = .stale ∨ h.dataState = .degraded
    let back := mending ∧ 4 ≤ h.goodRun
    let d : DataState := if mending ∧ h.goodRun < 4 then h.dataState else .live
    let before := (readingOf s .B).map fun r => r.zone
    let zone := if f.farOt then .hot else nextZone s.lim.zoneEdges (before.getD .normal) f.t
    let n := match readingOf s .B with
      | none => firstCount s.lim .B f.v
      | some r => (min (s.lim.cap.b * 3600000 : Int) (max 0 (r.count + (if d = .live then i' else s.budget.cmd.b) * 10))).toNat
    let u : State :=
      { s with
        hinge :=
          { h with
            exch := .ended, latest := some f, lastSeq := some m.seq, dataState := d, failRun := 0
            goodRun := if back then 0 else if mending then h.goodRun + 1 else h.goodRun
            degTimer := if back then none else h.degTimer }
        mon := { s.mon with b := ⟨some ⟨f.v, i', f.t, f.farOt, zone, n⟩, decide (d ≠ .live), false⟩ }
        budget := if d = h.dataState ∧ before = some zone then s.budget else (withRequest s).budget
        cond := { s.cond with latched := s.cond.latched ||| (if back then 0x1000000#26 else 0) |||
          (if before = none ∨ before = some zone then 0 else 0x80000#26) } }
    exec (.sample (sampleLine m) order) s = .next (match order with
      | .chargeFirst => branchSlot .B true (chargeSlot .B true u)
      | .branchFirst => chargeSlot .B true (branchSlot .B true u))

/-- A slot begins an exchange only where the last has ended, by sending the one byte C3h between its start and stop bits, least
significant bit first; the whole POLL opens the 2,000 µs reply window; the break's end
releases the line; the degraded timer takes STALE to DEGRADED. The rows of the failure and good runs make the move of their last
exchange, with the slot handed on (R118, R121, R123 to R126). What the rows do outside their state or with time remaining, and what the
run rows hand on, is the model's reading (logs 4, 6 and 18). -/
def Obligations.HingeLineAndRunsAct : Prop :=
  ∀ s : State,
    let h := s.hinge
    let u : State := { s with slots := { s.slots with hinge := 10 } }
    (h.exch = .ended → exec (.hingeSlot false) s = .next
      { u with
        hinge := { h with exch := .polling [false, true, true, false, false, false, false, true, true, true], brk := none } }) ∧
    (h.exch ≠ .ended → ∀ low, exec (.hingeSlot low) s = .next u) ∧
    (∀ sent, h.exch = .polling sent →
      exec .pollComplete s = .next { s with hinge := { h with exch := .window 2000 false } }) ∧
    ((∀ sent, h.exch ≠ .polling sent) → exec .pollComplete s = .next s) ∧
    exec .hslBreakEnd s = .next (if h.brk = some 0 then { s with hinge := { h with brk := none } } else s) ∧
    exec .degradedTimerExpiry s = .next (if h.dataState = .stale ∧ h.degTimer = some 0 then
      withRequest (latchedWith 0x800000#26 { s with hinge := { h with dataState := .degraded, degTimer := none } }) else s) ∧
    (h.dataState ≠ .suspect → exec .failureRun s = .next s) ∧
    (h.dataState = .suspect → exec .failureRun s = .next (cellBHeld (withRequest (latchedWith 0x400000#26
      { s with
        hinge := { h with dataState := .stale, failRun := 3, goodRun := 0, degTimer := some 500 }
        budget := { s.budget with cmd := ⟨s.budget.cmd.a, min 0 s.budget.cmd.b⟩ } })))) ∧
    ∀ order,
      (h.dataState ≠ .stale → h.dataState ≠ .degraded → exec (.goodRun order) s = .next s) ∧
      (h.dataState = .stale ∨ h.dataState = .degraded →
        let back := withRequest (latchedWith 0x1000000#26
          { s with hinge := { h with dataState := .live, failRun := 0, goodRun := 0, degTimer := none } })
        exec (.goodRun order) s = .next (match h.latest with
          | some f => cellBGood f order back
          | none => back))

end
end

