-- ==== Sys2Proof/Laws/State.lean ====
section
/-! SUPPORT. One lemma per field and per named update of State, each true by rfl, so that no later proof unfolds a record
update. -/

namespace Sys2Proof.Machine

/-! ### latch -/

@[simp] theorem latch_link (c : Condition) (s : State) : (latch c s).link = s.link := rfl
@[simp] theorem latch_resv (c : Condition) (s : State) : (latch c s).resv = s.resv := rfl
@[simp] theorem latch_budget (c : Condition) (s : State) : (latch c s).budget = s.budget := rfl
@[simp] theorem latch_mon (c : Condition) (s : State) : (latch c s).mon = s.mon := rfl
@[simp] theorem latch_hinge (c : Condition) (s : State) : (latch c s).hinge = s.hinge := rfl
@[simp] theorem latch_chg (c : Condition) (s : State) : (latch c s).chg = s.chg := rfl
@[simp] theorem latch_br (c : Condition) (s : State) : (latch c s).br = s.br := rfl
@[simp] theorem latch_load (c : Condition) (s : State) : (latch c s).load = s.load := rfl
@[simp] theorem latch_port (c : Condition) (s : State) : (latch c s).port = s.port := rfl
@[simp] theorem latch_arb (c : Condition) (s : State) : (latch c s).arb = s.arb := rfl
@[simp] theorem latch_dieHot (c : Condition) (s : State) : (latch c s).dieHot = s.dieHot := rfl
@[simp] theorem latch_cond (c : Condition) (s : State) :
    (latch c s).cond = { s.cond with latched := s.cond.latched ||| c.flag } := rfl
@[simp] theorem latch_lim (c : Condition) (s : State) : (latch c s).lim = s.lim := rfl
@[simp] theorem latch_locked (c : Condition) (s : State) : (latch c s).locked = s.locked := rfl
@[simp] theorem latch_slots (c : Condition) (s : State) : (latch c s).slots = s.slots := rfl
@[simp] theorem latch_pending (c : Condition) (s : State) : (latch c s).pending = s.pending := rfl

/-! ### count -/

@[simp] theorem count_link (i : CounterId) (s : State) : (count i s).link = s.link := rfl
@[simp] theorem count_resv (i : CounterId) (s : State) : (count i s).resv = s.resv := rfl
@[simp] theorem count_budget (i : CounterId) (s : State) : (count i s).budget = s.budget := rfl
@[simp] theorem count_mon (i : CounterId) (s : State) : (count i s).mon = s.mon := rfl
@[simp] theorem count_hinge (i : CounterId) (s : State) : (count i s).hinge = s.hinge := rfl
@[simp] theorem count_chg (i : CounterId) (s : State) : (count i s).chg = s.chg := rfl
@[simp] theorem count_br (i : CounterId) (s : State) : (count i s).br = s.br := rfl
@[simp] theorem count_load (i : CounterId) (s : State) : (count i s).load = s.load := rfl
@[simp] theorem count_port (i : CounterId) (s : State) : (count i s).port = s.port := rfl
@[simp] theorem count_arb (i : CounterId) (s : State) : (count i s).arb = s.arb := rfl
@[simp] theorem count_dieHot (i : CounterId) (s : State) : (count i s).dieHot = s.dieHot := rfl
@[simp] theorem count_cond (i : CounterId) (s : State) : (count i s).cond = { s.cond with cnt := s.cond.cnt.bump i } := rfl
@[simp] theorem count_lim (i : CounterId) (s : State) : (count i s).lim = s.lim := rfl
@[simp] theorem count_locked (i : CounterId) (s : State) : (count i s).locked = s.locked := rfl
@[simp] theorem count_slots (i : CounterId) (s : State) : (count i s).slots = s.slots := rfl
@[simp] theorem count_pending (i : CounterId) (s : State) : (count i s).pending = s.pending := rfl

/-! ### putRecord -/

@[simp] theorem putRecord_link (k : Fin 24) (r : Record) (s : State) : (putRecord k r s).link = s.link := rfl
@[simp] theorem putRecord_resv (k : Fin 24) (r : Record) (s : State) :
    (putRecord k r s).resv = { s.resv with slots := s.resv.slots.set k { slotOf s k with record := some r } } := rfl
@[simp] theorem putRecord_budget (k : Fin 24) (r : Record) (s : State) : (putRecord k r s).budget = s.budget := rfl
@[simp] theorem putRecord_mon (k : Fin 24) (r : Record) (s : State) : (putRecord k r s).mon = s.mon := rfl
@[simp] theorem putRecord_hinge (k : Fin 24) (r : Record) (s : State) : (putRecord k r s).hinge = s.hinge := rfl
@[simp] theorem putRecord_chg (k : Fin 24) (r : Record) (s : State) : (putRecord k r s).chg = s.chg := rfl
@[simp] theorem putRecord_br (k : Fin 24) (r : Record) (s : State) : (putRecord k r s).br = s.br := rfl
@[simp] theorem putRecord_load (k : Fin 24) (r : Record) (s : State) : (putRecord k r s).load = s.load := rfl
@[simp] theorem putRecord_port (k : Fin 24) (r : Record) (s : State) : (putRecord k r s).port = s.port := rfl
@[simp] theorem putRecord_arb (k : Fin 24) (r : Record) (s : State) : (putRecord k r s).arb = s.arb := rfl
@[simp] theorem putRecord_dieHot (k : Fin 24) (r : Record) (s : State) : (putRecord k r s).dieHot = s.dieHot := rfl
@[simp] theorem putRecord_cond (k : Fin 24) (r : Record) (s : State) : (putRecord k r s).cond = s.cond := rfl
@[simp] theorem putRecord_lim (k : Fin 24) (r : Record) (s : State) : (putRecord k r s).lim = s.lim := rfl
@[simp] theorem putRecord_locked (k : Fin 24) (r : Record) (s : State) : (putRecord k r s).locked = s.locked := rfl
@[simp] theorem putRecord_slots (k : Fin 24) (r : Record) (s : State) : (putRecord k r s).slots = s.slots := rfl
@[simp] theorem putRecord_pending (k : Fin 24) (r : Record) (s : State) : (putRecord k r s).pending = s.pending := rfl

/-! ### freeSlot -/

@[simp] theorem freeSlot_link (k : Fin 24) (s : State) : (freeSlot k s).link = s.link := rfl
@[simp] theorem freeSlot_resv (k : Fin 24) (s : State) :
    (freeSlot k s).resv = { s.resv with slots := s.resv.slots.set k ⟨(slotOf s k).gen + 1, none⟩ } := rfl
@[simp] theorem freeSlot_budget (k : Fin 24) (s : State) : (freeSlot k s).budget = s.budget := rfl
@[simp] theorem freeSlot_mon (k : Fin 24) (s : State) : (freeSlot k s).mon = s.mon := rfl
@[simp] theorem freeSlot_hinge (k : Fin 24) (s : State) : (freeSlot k s).hinge = s.hinge := rfl
@[simp] theorem freeSlot_chg (k : Fin 24) (s : State) : (freeSlot k s).chg = s.chg := rfl
@[simp] theorem freeSlot_br (k : Fin 24) (s : State) : (freeSlot k s).br = s.br := rfl
@[simp] theorem freeSlot_load (k : Fin 24) (s : State) : (freeSlot k s).load = s.load := rfl
@[simp] theorem freeSlot_port (k : Fin 24) (s : State) : (freeSlot k s).port = s.port := rfl
@[simp] theorem freeSlot_arb (k : Fin 24) (s : State) : (freeSlot k s).arb = s.arb := rfl
@[simp] theorem freeSlot_dieHot (k : Fin 24) (s : State) : (freeSlot k s).dieHot = s.dieHot := rfl
@[simp] theorem freeSlot_cond (k : Fin 24) (s : State) : (freeSlot k s).cond = s.cond := rfl
@[simp] theorem freeSlot_lim (k : Fin 24) (s : State) : (freeSlot k s).lim = s.lim := rfl
@[simp] theorem freeSlot_locked (k : Fin 24) (s : State) : (freeSlot k s).locked = s.locked := rfl
@[simp] theorem freeSlot_slots (k : Fin 24) (s : State) : (freeSlot k s).slots = s.slots := rfl
@[simp] theorem freeSlot_pending (k : Fin 24) (s : State) : (freeSlot k s).pending = s.pending := rfl

/-! ### takeGrantStamp -/

@[simp] theorem takeGrantStamp_link (s : State) : (takeGrantStamp s).link = s.link := rfl
@[simp] theorem takeGrantStamp_resv (s : State) :
    (takeGrantStamp s).resv = { s.resv with grants := nextStamp s.resv.grants } := rfl
@[simp] theorem takeGrantStamp_budget (s : State) : (takeGrantStamp s).budget = s.budget := rfl
@[simp] theorem takeGrantStamp_mon (s : State) : (takeGrantStamp s).mon = s.mon := rfl
@[simp] theorem takeGrantStamp_hinge (s : State) : (takeGrantStamp s).hinge = s.hinge := rfl
@[simp] theorem takeGrantStamp_chg (s : State) : (takeGrantStamp s).chg = s.chg := rfl
@[simp] theorem takeGrantStamp_br (s : State) : (takeGrantStamp s).br = s.br := rfl
@[simp] theorem takeGrantStamp_load (s : State) : (takeGrantStamp s).load = s.load := rfl
@[simp] theorem takeGrantStamp_port (s : State) : (takeGrantStamp s).port = s.port := rfl
@[simp] theorem takeGrantStamp_arb (s : State) : (takeGrantStamp s).arb = s.arb := rfl
@[simp] theorem takeGrantStamp_dieHot (s : State) : (takeGrantStamp s).dieHot = s.dieHot := rfl
@[simp] theorem takeGrantStamp_cond (s : State) : (takeGrantStamp s).cond = s.cond := rfl
@[simp] theorem takeGrantStamp_lim (s : State) : (takeGrantStamp s).lim = s.lim := rfl
@[simp] theorem takeGrantStamp_locked (s : State) : (takeGrantStamp s).locked = s.locked := rfl
@[simp] theorem takeGrantStamp_slots (s : State) : (takeGrantStamp s).slots = s.slots := rfl
@[simp] theorem takeGrantStamp_pending (s : State) : (takeGrantStamp s).pending = s.pending := rfl

/-! ### takeArrivalStamp -/

@[simp] theorem takeArrivalStamp_link (s : State) : (takeArrivalStamp s).link = s.link := rfl
@[simp] theorem takeArrivalStamp_resv (s : State) :
    (takeArrivalStamp s).resv = { s.resv with arrivals := nextStamp s.resv.arrivals } := rfl
@[simp] theorem takeArrivalStamp_budget (s : State) : (takeArrivalStamp s).budget = s.budget := rfl
@[simp] theorem takeArrivalStamp_mon (s : State) : (takeArrivalStamp s).mon = s.mon := rfl
@[simp] theorem takeArrivalStamp_hinge (s : State) : (takeArrivalStamp s).hinge = s.hinge := rfl
@[simp] theorem takeArrivalStamp_chg (s : State) : (takeArrivalStamp s).chg = s.chg := rfl
@[simp] theorem takeArrivalStamp_br (s : State) : (takeArrivalStamp s).br = s.br := rfl
@[simp] theorem takeArrivalStamp_load (s : State) : (takeArrivalStamp s).load = s.load := rfl
@[simp] theorem takeArrivalStamp_port (s : State) : (takeArrivalStamp s).port = s.port := rfl
@[simp] theorem takeArrivalStamp_arb (s : State) : (takeArrivalStamp s).arb = s.arb := rfl
@[simp] theorem takeArrivalStamp_dieHot (s : State) : (takeArrivalStamp s).dieHot = s.dieHot := rfl
@[simp] theorem takeArrivalStamp_cond (s : State) : (takeArrivalStamp s).cond = s.cond := rfl
@[simp] theorem takeArrivalStamp_lim (s : State) : (takeArrivalStamp s).lim = s.lim := rfl
@[simp] theorem takeArrivalStamp_locked (s : State) : (takeArrivalStamp s).locked = s.locked := rfl
@[simp] theorem takeArrivalStamp_slots (s : State) : (takeArrivalStamp s).slots = s.slots := rfl
@[simp] theorem takeArrivalStamp_pending (s : State) : (takeArrivalStamp s).pending = s.pending := rfl

/-! ### setCmd -/

@[simp] theorem setCmd_link (x : Cell) (c : Int) (s : State) : (setCmd x c s).link = s.link := rfl
@[simp] theorem setCmd_resv (x : Cell) (c : Int) (s : State) : (setCmd x c s).resv = s.resv := rfl
@[simp] theorem setCmd_budget (x : Cell) (c : Int) (s : State) :
    (setCmd x c s).budget = { s.budget with cmd := s.budget.cmd.set x c } := rfl
@[simp] theorem setCmd_mon (x : Cell) (c : Int) (s : State) : (setCmd x c s).mon = s.mon := rfl
@[simp] theorem setCmd_hinge (x : Cell) (c : Int) (s : State) : (setCmd x c s).hinge = s.hinge := rfl
@[simp] theorem setCmd_chg (x : Cell) (c : Int) (s : State) : (setCmd x c s).chg = s.chg := rfl
@[simp] theorem setCmd_br (x : Cell) (c : Int) (s : State) : (setCmd x c s).br = s.br := rfl
@[simp] theorem setCmd_load (x : Cell) (c : Int) (s : State) : (setCmd x c s).load = s.load := rfl
@[simp] theorem setCmd_port (x : Cell) (c : Int) (s : State) : (setCmd x c s).port = s.port := rfl
@[simp] theorem setCmd_arb (x : Cell) (c : Int) (s : State) : (setCmd x c s).arb = s.arb := rfl
@[simp] theorem setCmd_dieHot (x : Cell) (c : Int) (s : State) : (setCmd x c s).dieHot = s.dieHot := rfl
@[simp] theorem setCmd_cond (x : Cell) (c : Int) (s : State) : (setCmd x c s).cond = s.cond := rfl
@[simp] theorem setCmd_lim (x : Cell) (c : Int) (s : State) : (setCmd x c s).lim = s.lim := rfl
@[simp] theorem setCmd_locked (x : Cell) (c : Int) (s : State) : (setCmd x c s).locked = s.locked := rfl
@[simp] theorem setCmd_slots (x : Cell) (c : Int) (s : State) : (setCmd x c s).slots = s.slots := rfl
@[simp] theorem setCmd_pending (x : Cell) (c : Int) (s : State) : (setCmd x c s).pending = s.pending := rfl

/-! ### putCharge -/

@[simp] theorem putCharge_link (x : Cell) (c : Charge) (s : State) : (putCharge x c s).link = s.link := rfl
@[simp] theorem putCharge_resv (x : Cell) (c : Charge) (s : State) : (putCharge x c s).resv = s.resv := rfl
@[simp] theorem putCharge_budget (x : Cell) (c : Charge) (s : State) : (putCharge x c s).budget = s.budget := rfl
@[simp] theorem putCharge_mon (x : Cell) (c : Charge) (s : State) : (putCharge x c s).mon = s.mon := rfl
@[simp] theorem putCharge_hinge (x : Cell) (c : Charge) (s : State) : (putCharge x c s).hinge = s.hinge := rfl
@[simp] theorem putCharge_chg (x : Cell) (c : Charge) (s : State) : (putCharge x c s).chg = s.chg.set x c := rfl
@[simp] theorem putCharge_br (x : Cell) (c : Charge) (s : State) : (putCharge x c s).br = s.br := rfl
@[simp] theorem putCharge_load (x : Cell) (c : Charge) (s : State) : (putCharge x c s).load = s.load := rfl
@[simp] theorem putCharge_port (x : Cell) (c : Charge) (s : State) : (putCharge x c s).port = s.port := rfl
@[simp] theorem putCharge_arb (x : Cell) (c : Charge) (s : State) : (putCharge x c s).arb = s.arb := rfl
@[simp] theorem putCharge_dieHot (x : Cell) (c : Charge) (s : State) : (putCharge x c s).dieHot = s.dieHot := rfl
@[simp] theorem putCharge_cond (x : Cell) (c : Charge) (s : State) : (putCharge x c s).cond = s.cond := rfl
@[simp] theorem putCharge_lim (x : Cell) (c : Charge) (s : State) : (putCharge x c s).lim = s.lim := rfl
@[simp] theorem putCharge_locked (x : Cell) (c : Charge) (s : State) : (putCharge x c s).locked = s.locked := rfl
@[simp] theorem putCharge_slots (x : Cell) (c : Charge) (s : State) : (putCharge x c s).slots = s.slots := rfl
@[simp] theorem putCharge_pending (x : Cell) (c : Charge) (s : State) : (putCharge x c s).pending = s.pending := rfl

/-! ### putBranch -/

@[simp] theorem putBranch_link (x : Cell) (b : Branch) (s : State) : (putBranch x b s).link = s.link := rfl
@[simp] theorem putBranch_resv (x : Cell) (b : Branch) (s : State) : (putBranch x b s).resv = s.resv := rfl
@[simp] theorem putBranch_budget (x : Cell) (b : Branch) (s : State) : (putBranch x b s).budget = s.budget := rfl
@[simp] theorem putBranch_mon (x : Cell) (b : Branch) (s : State) : (putBranch x b s).mon = s.mon := rfl
@[simp] theorem putBranch_hinge (x : Cell) (b : Branch) (s : State) : (putBranch x b s).hinge = s.hinge := rfl
@[simp] theorem putBranch_chg (x : Cell) (b : Branch) (s : State) : (putBranch x b s).chg = s.chg := rfl
@[simp] theorem putBranch_br (x : Cell) (b : Branch) (s : State) : (putBranch x b s).br = s.br.set x b := rfl
@[simp] theorem putBranch_load (x : Cell) (b : Branch) (s : State) : (putBranch x b s).load = s.load := rfl
@[simp] theorem putBranch_port (x : Cell) (b : Branch) (s : State) : (putBranch x b s).port = s.port := rfl
@[simp] theorem putBranch_arb (x : Cell) (b : Branch) (s : State) : (putBranch x b s).arb = s.arb := rfl
@[simp] theorem putBranch_dieHot (x : Cell) (b : Branch) (s : State) : (putBranch x b s).dieHot = s.dieHot := rfl
@[simp] theorem putBranch_cond (x : Cell) (b : Branch) (s : State) : (putBranch x b s).cond = s.cond := rfl
@[simp] theorem putBranch_lim (x : Cell) (b : Branch) (s : State) : (putBranch x b s).lim = s.lim := rfl
@[simp] theorem putBranch_locked (x : Cell) (b : Branch) (s : State) : (putBranch x b s).locked = s.locked := rfl
@[simp] theorem putBranch_slots (x : Cell) (b : Branch) (s : State) : (putBranch x b s).slots = s.slots := rfl
@[simp] theorem putBranch_pending (x : Cell) (b : Branch) (s : State) : (putBranch x b s).pending = s.pending := rfl

/-! ### putLoad -/

@[simp] theorem putLoad_link (l : Load) (s : State) : (putLoad l s).link = s.link := rfl
@[simp] theorem putLoad_resv (l : Load) (s : State) : (putLoad l s).resv = s.resv := rfl
@[simp] theorem putLoad_budget (l : Load) (s : State) : (putLoad l s).budget = s.budget := rfl
@[simp] theorem putLoad_mon (l : Load) (s : State) : (putLoad l s).mon = s.mon := rfl
@[simp] theorem putLoad_hinge (l : Load) (s : State) : (putLoad l s).hinge = s.hinge := rfl
@[simp] theorem putLoad_chg (l : Load) (s : State) : (putLoad l s).chg = s.chg := rfl
@[simp] theorem putLoad_br (l : Load) (s : State) : (putLoad l s).br = s.br := rfl
@[simp] theorem putLoad_load (l : Load) (s : State) : (putLoad l s).load = l := rfl
@[simp] theorem putLoad_port (l : Load) (s : State) : (putLoad l s).port = s.port := rfl
@[simp] theorem putLoad_arb (l : Load) (s : State) : (putLoad l s).arb = s.arb := rfl
@[simp] theorem putLoad_dieHot (l : Load) (s : State) : (putLoad l s).dieHot = s.dieHot := rfl
@[simp] theorem putLoad_cond (l : Load) (s : State) : (putLoad l s).cond = s.cond := rfl
@[simp] theorem putLoad_lim (l : Load) (s : State) : (putLoad l s).lim = s.lim := rfl
@[simp] theorem putLoad_locked (l : Load) (s : State) : (putLoad l s).locked = s.locked := rfl
@[simp] theorem putLoad_slots (l : Load) (s : State) : (putLoad l s).slots = s.slots := rfl
@[simp] theorem putLoad_pending (l : Load) (s : State) : (putLoad l s).pending = s.pending := rfl

/-! ### putMonitor -/

@[simp] theorem putMonitor_link (x : Cell) (m : Monitor) (s : State) : (putMonitor x m s).link = s.link := rfl
@[simp] theorem putMonitor_resv (x : Cell) (m : Monitor) (s : State) : (putMonitor x m s).resv = s.resv := rfl
@[simp] theorem putMonitor_budget (x : Cell) (m : Monitor) (s : State) : (putMonitor x m s).budget = s.budget := rfl
@[simp] theorem putMonitor_mon (x : Cell) (m : Monitor) (s : State) : (putMonitor x m s).mon = s.mon.set x m := rfl
@[simp] theorem putMonitor_hinge (x : Cell) (m : Monitor) (s : State) : (putMonitor x m s).hinge = s.hinge := rfl
@[simp] theorem putMonitor_chg (x : Cell) (m : Monitor) (s : State) : (putMonitor x m s).chg = s.chg := rfl
@[simp] theorem putMonitor_br (x : Cell) (m : Monitor) (s : State) : (putMonitor x m s).br = s.br := rfl
@[simp] theorem putMonitor_load (x : Cell) (m : Monitor) (s : State) : (putMonitor x m s).load = s.load := rfl
@[simp] theorem putMonitor_port (x : Cell) (m : Monitor) (s : State) : (putMonitor x m s).port = s.port := rfl
@[simp] theorem putMonitor_arb (x : Cell) (m : Monitor) (s : State) : (putMonitor x m s).arb = s.arb := rfl
@[simp] theorem putMonitor_dieHot (x : Cell) (m : Monitor) (s : State) : (putMonitor x m s).dieHot = s.dieHot := rfl
@[simp] theorem putMonitor_cond (x : Cell) (m : Monitor) (s : State) : (putMonitor x m s).cond = s.cond := rfl
@[simp] theorem putMonitor_lim (x : Cell) (m : Monitor) (s : State) : (putMonitor x m s).lim = s.lim := rfl
@[simp] theorem putMonitor_locked (x : Cell) (m : Monitor) (s : State) : (putMonitor x m s).locked = s.locked := rfl
@[simp] theorem putMonitor_slots (x : Cell) (m : Monitor) (s : State) : (putMonitor x m s).slots = s.slots := rfl
@[simp] theorem putMonitor_pending (x : Cell) (m : Monitor) (s : State) : (putMonitor x m s).pending = s.pending := rfl

/-! ### putHinge -/

@[simp] theorem putHinge_link (h : Hinge) (s : State) : (putHinge h s).link = s.link := rfl
@[simp] theorem putHinge_resv (h : Hinge) (s : State) : (putHinge h s).resv = s.resv := rfl
@[simp] theorem putHinge_budget (h : Hinge) (s : State) : (putHinge h s).budget = s.budget := rfl
@[simp] theorem putHinge_mon (h : Hinge) (s : State) : (putHinge h s).mon = s.mon := rfl
@[simp] theorem putHinge_hinge (h : Hinge) (s : State) : (putHinge h s).hinge = h := rfl
@[simp] theorem putHinge_chg (h : Hinge) (s : State) : (putHinge h s).chg = s.chg := rfl
@[simp] theorem putHinge_br (h : Hinge) (s : State) : (putHinge h s).br = s.br := rfl
@[simp] theorem putHinge_load (h : Hinge) (s : State) : (putHinge h s).load = s.load := rfl
@[simp] theorem putHinge_port (h : Hinge) (s : State) : (putHinge h s).port = s.port := rfl
@[simp] theorem putHinge_arb (h : Hinge) (s : State) : (putHinge h s).arb = s.arb := rfl
@[simp] theorem putHinge_dieHot (h : Hinge) (s : State) : (putHinge h s).dieHot = s.dieHot := rfl
@[simp] theorem putHinge_cond (h : Hinge) (s : State) : (putHinge h s).cond = s.cond := rfl
@[simp] theorem putHinge_lim (h : Hinge) (s : State) : (putHinge h s).lim = s.lim := rfl
@[simp] theorem putHinge_locked (h : Hinge) (s : State) : (putHinge h s).locked = s.locked := rfl
@[simp] theorem putHinge_slots (h : Hinge) (s : State) : (putHinge h s).slots = s.slots := rfl
@[simp] theorem putHinge_pending (h : Hinge) (s : State) : (putHinge h s).pending = s.pending := rfl

/-! ### placeAnswer -/

@[simp] theorem placeAnswer_link (o : Outc) (p : List Byte) (s : State) :
    (placeAnswer o p s).link = { s.link with buffer := some ⟨statusByte s, o, p⟩ } := rfl
@[simp] theorem placeAnswer_resv (o : Outc) (p : List Byte) (s : State) : (placeAnswer o p s).resv = s.resv := rfl
@[simp] theorem placeAnswer_budget (o : Outc) (p : List Byte) (s : State) : (placeAnswer o p s).budget = s.budget := rfl
@[simp] theorem placeAnswer_mon (o : Outc) (p : List Byte) (s : State) : (placeAnswer o p s).mon = s.mon := rfl
@[simp] theorem placeAnswer_hinge (o : Outc) (p : List Byte) (s : State) : (placeAnswer o p s).hinge = s.hinge := rfl
@[simp] theorem placeAnswer_chg (o : Outc) (p : List Byte) (s : State) : (placeAnswer o p s).chg = s.chg := rfl
@[simp] theorem placeAnswer_br (o : Outc) (p : List Byte) (s : State) : (placeAnswer o p s).br = s.br := rfl
@[simp] theorem placeAnswer_load (o : Outc) (p : List Byte) (s : State) : (placeAnswer o p s).load = s.load := rfl
@[simp] theorem placeAnswer_port (o : Outc) (p : List Byte) (s : State) : (placeAnswer o p s).port = s.port := rfl
@[simp] theorem placeAnswer_arb (o : Outc) (p : List Byte) (s : State) : (placeAnswer o p s).arb = s.arb := rfl
@[simp] theorem placeAnswer_dieHot (o : Outc) (p : List Byte) (s : State) : (placeAnswer o p s).dieHot = s.dieHot := rfl
@[simp] theorem placeAnswer_cond (o : Outc) (p : List Byte) (s : State) : (placeAnswer o p s).cond = s.cond := rfl
@[simp] theorem placeAnswer_lim (o : Outc) (p : List Byte) (s : State) : (placeAnswer o p s).lim = s.lim := rfl
@[simp] theorem placeAnswer_locked (o : Outc) (p : List Byte) (s : State) : (placeAnswer o p s).locked = s.locked := rfl
@[simp] theorem placeAnswer_slots (o : Outc) (p : List Byte) (s : State) : (placeAnswer o p s).slots = s.slots := rfl
@[simp] theorem placeAnswer_pending (o : Outc) (p : List Byte) (s : State) : (placeAnswer o p s).pending = s.pending := rfl

/-! ### endFrame -/

@[simp] theorem endFrame_link (s : State) : (endFrame s).link = { s.link with rx := .idle, frameTimer := none } := rfl
@[simp] theorem endFrame_resv (s : State) : (endFrame s).resv = s.resv := rfl
@[simp] theorem endFrame_budget (s : State) : (endFrame s).budget = s.budget := rfl
@[simp] theorem endFrame_mon (s : State) : (endFrame s).mon = s.mon := rfl
@[simp] theorem endFrame_hinge (s : State) : (endFrame s).hinge = s.hinge := rfl
@[simp] theorem endFrame_chg (s : State) : (endFrame s).chg = s.chg := rfl
@[simp] theorem endFrame_br (s : State) : (endFrame s).br = s.br := rfl
@[simp] theorem endFrame_load (s : State) : (endFrame s).load = s.load := rfl
@[simp] theorem endFrame_port (s : State) : (endFrame s).port = s.port := rfl
@[simp] theorem endFrame_arb (s : State) : (endFrame s).arb = s.arb := rfl
@[simp] theorem endFrame_dieHot (s : State) : (endFrame s).dieHot = s.dieHot := rfl
@[simp] theorem endFrame_cond (s : State) : (endFrame s).cond = s.cond := rfl
@[simp] theorem endFrame_lim (s : State) : (endFrame s).lim = s.lim := rfl
@[simp] theorem endFrame_locked (s : State) : (endFrame s).locked = s.locked := rfl
@[simp] theorem endFrame_slots (s : State) : (endFrame s).slots = s.slots := rfl
@[simp] theorem endFrame_pending (s : State) : (endFrame s).pending = s.pending := rfl

/-! ### withRequest -/

@[simp] theorem withRequest_link (s : State) : (withRequest s).link = s.link := rfl
@[simp] theorem withRequest_resv (s : State) : (withRequest s).resv = s.resv := rfl
@[simp] theorem withRequest_budget (s : State) :
    (withRequest s).budget = { s.budget with mark := true, delay := if s.budget.mark then s.budget.delay else some 1 } := rfl
@[simp] theorem withRequest_mon (s : State) : (withRequest s).mon = s.mon := rfl
@[simp] theorem withRequest_hinge (s : State) : (withRequest s).hinge = s.hinge := rfl
@[simp] theorem withRequest_chg (s : State) : (withRequest s).chg = s.chg := rfl
@[simp] theorem withRequest_br (s : State) : (withRequest s).br = s.br := rfl
@[simp] theorem withRequest_load (s : State) : (withRequest s).load = s.load := rfl
@[simp] theorem withRequest_port (s : State) : (withRequest s).port = s.port := rfl
@[simp] theorem withRequest_arb (s : State) : (withRequest s).arb = s.arb := rfl
@[simp] theorem withRequest_dieHot (s : State) : (withRequest s).dieHot = s.dieHot := rfl
@[simp] theorem withRequest_cond (s : State) : (withRequest s).cond = s.cond := rfl
@[simp] theorem withRequest_lim (s : State) : (withRequest s).lim = s.lim := rfl
@[simp] theorem withRequest_locked (s : State) : (withRequest s).locked = s.locked := rfl
@[simp] theorem withRequest_slots (s : State) : (withRequest s).slots = s.slots := rfl
@[simp] theorem withRequest_pending (s : State) : (withRequest s).pending = s.pending := rfl

/-! ### latchedWith -/

@[simp] theorem latchedWith_link (b : BitVec 26) (s : State) : (latchedWith b s).link = s.link := rfl
@[simp] theorem latchedWith_resv (b : BitVec 26) (s : State) : (latchedWith b s).resv = s.resv := rfl
@[simp] theorem latchedWith_budget (b : BitVec 26) (s : State) : (latchedWith b s).budget = s.budget := rfl
@[simp] theorem latchedWith_mon (b : BitVec 26) (s : State) : (latchedWith b s).mon = s.mon := rfl
@[simp] theorem latchedWith_hinge (b : BitVec 26) (s : State) : (latchedWith b s).hinge = s.hinge := rfl
@[simp] theorem latchedWith_chg (b : BitVec 26) (s : State) : (latchedWith b s).chg = s.chg := rfl
@[simp] theorem latchedWith_br (b : BitVec 26) (s : State) : (latchedWith b s).br = s.br := rfl
@[simp] theorem latchedWith_load (b : BitVec 26) (s : State) : (latchedWith b s).load = s.load := rfl
@[simp] theorem latchedWith_port (b : BitVec 26) (s : State) : (latchedWith b s).port = s.port := rfl
@[simp] theorem latchedWith_arb (b : BitVec 26) (s : State) : (latchedWith b s).arb = s.arb := rfl
@[simp] theorem latchedWith_dieHot (b : BitVec 26) (s : State) : (latchedWith b s).dieHot = s.dieHot := rfl
@[simp] theorem latchedWith_cond (b : BitVec 26) (s : State) :
    (latchedWith b s).cond = { s.cond with latched := s.cond.latched ||| b } := rfl
@[simp] theorem latchedWith_lim (b : BitVec 26) (s : State) : (latchedWith b s).lim = s.lim := rfl
@[simp] theorem latchedWith_locked (b : BitVec 26) (s : State) : (latchedWith b s).locked = s.locked := rfl
@[simp] theorem latchedWith_slots (b : BitVec 26) (s : State) : (latchedWith b s).slots = s.slots := rfl
@[simp] theorem latchedWith_pending (b : BitVec 26) (s : State) : (latchedWith b s).pending = s.pending := rfl

/-! ### afterEdges -/

@[simp] theorem afterEdges_resv (s : State) : (afterEdges s).resv = s.resv := rfl
@[simp] theorem afterEdges_budget (s : State) : (afterEdges s).budget = s.budget := rfl
@[simp] theorem afterEdges_mon (s : State) : (afterEdges s).mon = s.mon := rfl
@[simp] theorem afterEdges_hinge (s : State) : (afterEdges s).hinge = s.hinge := rfl
@[simp] theorem afterEdges_chg (s : State) : (afterEdges s).chg = s.chg := rfl
@[simp] theorem afterEdges_br (s : State) : (afterEdges s).br = s.br := rfl
@[simp] theorem afterEdges_load (s : State) : (afterEdges s).load = s.load := rfl
@[simp] theorem afterEdges_port (s : State) : (afterEdges s).port = s.port := rfl
@[simp] theorem afterEdges_arb (s : State) : (afterEdges s).arb = s.arb := rfl
@[simp] theorem afterEdges_dieHot (s : State) : (afterEdges s).dieHot = s.dieHot := rfl
@[simp] theorem afterEdges_cond (s : State) : (afterEdges s).cond = s.cond := rfl
@[simp] theorem afterEdges_lim (s : State) : (afterEdges s).lim = s.lim := rfl
@[simp] theorem afterEdges_locked (s : State) : (afterEdges s).locked = s.locked := rfl
@[simp] theorem afterEdges_slots (s : State) : (afterEdges s).slots = s.slots := rfl
@[simp] theorem afterEdges_pending (s : State) : (afterEdges s).pending = s.pending := rfl

/-! ### answered -/

@[simp] theorem answered_resv (u : State) (o : Outc) (p : List Byte) : (answered u o p).resv = u.resv := rfl
@[simp] theorem answered_budget (u : State) (o : Outc) (p : List Byte) : (answered u o p).budget = u.budget := rfl
@[simp] theorem answered_mon (u : State) (o : Outc) (p : List Byte) : (answered u o p).mon = u.mon := rfl
@[simp] theorem answered_hinge (u : State) (o : Outc) (p : List Byte) : (answered u o p).hinge = u.hinge := rfl
@[simp] theorem answered_chg (u : State) (o : Outc) (p : List Byte) : (answered u o p).chg = u.chg := rfl
@[simp] theorem answered_br (u : State) (o : Outc) (p : List Byte) : (answered u o p).br = u.br := rfl
@[simp] theorem answered_load (u : State) (o : Outc) (p : List Byte) : (answered u o p).load = u.load := rfl
@[simp] theorem answered_port (u : State) (o : Outc) (p : List Byte) : (answered u o p).port = u.port := rfl
@[simp] theorem answered_arb (u : State) (o : Outc) (p : List Byte) : (answered u o p).arb = u.arb := rfl
@[simp] theorem answered_dieHot (u : State) (o : Outc) (p : List Byte) : (answered u o p).dieHot = u.dieHot := rfl
@[simp] theorem answered_cond (u : State) (o : Outc) (p : List Byte) : (answered u o p).cond = u.cond := rfl
@[simp] theorem answered_lim (u : State) (o : Outc) (p : List Byte) : (answered u o p).lim = u.lim := rfl
@[simp] theorem answered_locked (u : State) (o : Outc) (p : List Byte) : (answered u o p).locked = u.locked := rfl
@[simp] theorem answered_slots (u : State) (o : Outc) (p : List Byte) : (answered u o p).slots = u.slots := rfl
@[simp] theorem answered_pending (u : State) (o : Outc) (p : List Byte) : (answered u o p).pending = u.pending := rfl

/-! ### withPhase -/

@[simp] theorem withPhase_link (x : Cell) (c : Charge) (s : State) : (withPhase x c s).link = s.link := rfl
@[simp] theorem withPhase_resv (x : Cell) (c : Charge) (s : State) : (withPhase x c s).resv = s.resv := rfl
@[simp] theorem withPhase_mon (x : Cell) (c : Charge) (s : State) : (withPhase x c s).mon = s.mon := rfl
@[simp] theorem withPhase_hinge (x : Cell) (c : Charge) (s : State) : (withPhase x c s).hinge = s.hinge := rfl
@[simp] theorem withPhase_chg (x : Cell) (c : Charge) (s : State) : (withPhase x c s).chg = s.chg.set x c := rfl
@[simp] theorem withPhase_br (x : Cell) (c : Charge) (s : State) : (withPhase x c s).br = s.br := rfl
@[simp] theorem withPhase_load (x : Cell) (c : Charge) (s : State) : (withPhase x c s).load = s.load := rfl
@[simp] theorem withPhase_port (x : Cell) (c : Charge) (s : State) : (withPhase x c s).port = s.port := rfl
@[simp] theorem withPhase_arb (x : Cell) (c : Charge) (s : State) : (withPhase x c s).arb = s.arb := rfl
@[simp] theorem withPhase_dieHot (x : Cell) (c : Charge) (s : State) : (withPhase x c s).dieHot = s.dieHot := rfl
@[simp] theorem withPhase_cond (x : Cell) (c : Charge) (s : State) : (withPhase x c s).cond = s.cond := rfl
@[simp] theorem withPhase_lim (x : Cell) (c : Charge) (s : State) : (withPhase x c s).lim = s.lim := rfl
@[simp] theorem withPhase_locked (x : Cell) (c : Charge) (s : State) : (withPhase x c s).locked = s.locked := rfl
@[simp] theorem withPhase_slots (x : Cell) (c : Charge) (s : State) : (withPhase x c s).slots = s.slots := rfl
@[simp] theorem withPhase_pending (x : Cell) (c : Charge) (s : State) : (withPhase x c s).pending = s.pending := rfl

/-! ### withCount -/

@[simp] theorem withCount_link (x : Cell) (n : Nat) (s : State) : (withCount x n s).link = s.link := rfl
@[simp] theorem withCount_resv (x : Cell) (n : Nat) (s : State) : (withCount x n s).resv = s.resv := rfl
@[simp] theorem withCount_budget (x : Cell) (n : Nat) (s : State) : (withCount x n s).budget = s.budget := rfl
@[simp] theorem withCount_hinge (x : Cell) (n : Nat) (s : State) : (withCount x n s).hinge = s.hinge := rfl
@[simp] theorem withCount_chg (x : Cell) (n : Nat) (s : State) : (withCount x n s).chg = s.chg := rfl
@[simp] theorem withCount_br (x : Cell) (n : Nat) (s : State) : (withCount x n s).br = s.br := rfl
@[simp] theorem withCount_load (x : Cell) (n : Nat) (s : State) : (withCount x n s).load = s.load := rfl
@[simp] theorem withCount_port (x : Cell) (n : Nat) (s : State) : (withCount x n s).port = s.port := rfl
@[simp] theorem withCount_arb (x : Cell) (n : Nat) (s : State) : (withCount x n s).arb = s.arb := rfl
@[simp] theorem withCount_dieHot (x : Cell) (n : Nat) (s : State) : (withCount x n s).dieHot = s.dieHot := rfl
@[simp] theorem withCount_cond (x : Cell) (n : Nat) (s : State) : (withCount x n s).cond = s.cond := rfl
@[simp] theorem withCount_lim (x : Cell) (n : Nat) (s : State) : (withCount x n s).lim = s.lim := rfl
@[simp] theorem withCount_locked (x : Cell) (n : Nat) (s : State) : (withCount x n s).locked = s.locked := rfl
@[simp] theorem withCount_slots (x : Cell) (n : Nat) (s : State) : (withCount x n s).slots = s.slots := rfl
@[simp] theorem withCount_pending (x : Cell) (n : Nat) (s : State) : (withCount x n s).pending = s.pending := rfl

/-! ### publishStage -/

@[simp] theorem publishStage_link (c : Capability) (u sh gr : Nat) (o : SplitOut) :
    (publishStage c u sh gr o).link = o.st.link := rfl
@[simp] theorem publishStage_resv (c : Capability) (u sh gr : Nat) (o : SplitOut) :
    (publishStage c u sh gr o).resv = o.st.resv := rfl
@[simp] theorem publishStage_mon (c : Capability) (u sh gr : Nat) (o : SplitOut) :
    (publishStage c u sh gr o).mon = o.st.mon := rfl
@[simp] theorem publishStage_hinge (c : Capability) (u sh gr : Nat) (o : SplitOut) :
    (publishStage c u sh gr o).hinge = o.st.hinge := rfl
@[simp] theorem publishStage_chg (c : Capability) (u sh gr : Nat) (o : SplitOut) :
    (publishStage c u sh gr o).chg = o.st.chg := rfl
@[simp] theorem publishStage_br (c : Capability) (u sh gr : Nat) (o : SplitOut) :
    (publishStage c u sh gr o).br = o.st.br := rfl
@[simp] theorem publishStage_load (c : Capability) (u sh gr : Nat) (o : SplitOut) :
    (publishStage c u sh gr o).load = o.st.load := rfl
@[simp] theorem publishStage_port (c : Capability) (u sh gr : Nat) (o : SplitOut) :
    (publishStage c u sh gr o).port = o.st.port := rfl
@[simp] theorem publishStage_arb (c : Capability) (u sh gr : Nat) (o : SplitOut) :
    (publishStage c u sh gr o).arb = o.st.arb := rfl
@[simp] theorem publishStage_dieHot (c : Capability) (u sh gr : Nat) (o : SplitOut) :
    (publishStage c u sh gr o).dieHot = o.st.dieHot := rfl
@[simp] theorem publishStage_cond (c : Capability) (u sh gr : Nat) (o : SplitOut) :
    (publishStage c u sh gr o).cond = o.st.cond := rfl
@[simp] theorem publishStage_lim (c : Capability) (u sh gr : Nat) (o : SplitOut) :
    (publishStage c u sh gr o).lim = o.st.lim := rfl
@[simp] theorem publishStage_locked (c : Capability) (u sh gr : Nat) (o : SplitOut) :
    (publishStage c u sh gr o).locked = o.st.locked := rfl
@[simp] theorem publishStage_slots (c : Capability) (u sh gr : Nat) (o : SplitOut) :
    (publishStage c u sh gr o).slots = o.st.slots := rfl
@[simp] theorem publishStage_pending (c : Capability) (u sh gr : Nat) (o : SplitOut) :
    (publishStage c u sh gr o).pending = o.st.pending := rfl

/-! ### Pairs of like blocks -/

@[simp] theorem PerCell.get_set_self {α : Type} (p : PerCell α) (x : Cell) (v : α) : (p.set x v).get x = v := by
  cases x <;> rfl
@[simp] theorem PerCell.set_set_self {α : Type} (p : PerCell α) (x : Cell) (v w : α) : (p.set x v).set x w = p.set x w := by
  cases x <;> rfl
@[simp] theorem PerCell.set_get_self {α : Type} (p : PerCell α) (x : Cell) : p.set x (p.get x) = p := by
  cases x <;> rfl
theorem PerCell.get_set_of_ne {α : Type} (p : PerCell α) {x y : Cell} (v : α) (h : y ≠ x) : (p.set x v).get y = p.get y := by
  cases x <;> cases y <;> simp_all [PerCell.set, PerCell.get]
@[simp] theorem PerPort.get_set_self {α : Type} (p : PerPort α) (x : PortId) (v : α) : (p.set x v).get x = v := by
  cases x <;> rfl
@[simp] theorem PerPort.set_set_self {α : Type} (p : PerPort α) (x : PortId) (v w : α) :
    (p.set x v).set x w = p.set x w := by
  cases x <;> rfl
@[simp] theorem PerPort.set_get_self {α : Type} (p : PerPort α) (x : PortId) : p.set x (p.get x) = p := by
  cases x <;> rfl
theorem PerPort.get_set_of_ne {α : Type} (p : PerPort α) {x y : PortId} (v : α) (h : y ≠ x) :
    (p.set x v).get y = p.get y := by
  cases x <;> cases y <;> simp_all [PerPort.set, PerPort.get]

end Sys2Proof.Machine
end

