-- ==== Sys2Proof/Laws/Ops.lean ====
section
/-! SUPPORT. What the shared operations of Machine/Ops.lean and Machine/Flags.lean do, each said once. -/

namespace Sys2Proof.Machine

/-! ### Saturation -/

/-- Saturation is the meet with the high end of the join with the low end. -/
theorem clampInt_eq_min_max (lo hi v : Int) (h : lo ≤ hi) : clampInt lo hi v = min hi (max lo v) := by
  unfold clampInt
  split
  · omega
  · split <;> omega

/-- A saturated figure lies in its range. -/
theorem clampInt_mem (lo hi v : Int) (h : lo ≤ hi) : lo ≤ clampInt lo hi v ∧ clampInt lo hi v ≤ hi := by
  rw [clampInt_eq_min_max lo hi v h]
  omega

/-- The natural clamp as a meet of a join. -/
theorem clampNat_eq_min_max (lo hi v : Nat) (h : lo ≤ hi) : clampNat lo hi v = min hi (max lo v) := by
  unfold clampNat
  split
  · omega
  · split <;> omega

/-- A counter's next value stays at most 255 from a value at most 255 (R168). -/
theorem satCount_le {n : Nat} (h : n ≤ 255) : satCount n ≤ 255 := by
  unfold satCount
  split <;> omega

/-- A stamp counter's next value lies above it, up to 65,535 (R3). -/
theorem le_nextStamp (n : Nat) : n ≤ nextStamp n := by
  unfold nextStamp
  split <;> omega

/-! ### Pass requests (R28) -/

/-- A pass request sets the mark, and starts the delay where the mark was clear. -/
theorem requestPass_eq (s : State) : requestPass s = withRequest s := by
  unfold requestPass withRequest
  split
  · rename_i h
    rcases s with ⟨_, _, ⟨_⟩, _⟩
    simp_all
  · simp_all [Config.requestDelay]

/-- A conditional request touches the budget unit alone. -/
theorem requestPassIf_eq (c : Bool) (s : State) :
    requestPassIf c s = { s with budget := if c then (withRequest s).budget else s.budget } := by
  unfold requestPassIf
  split
  · rename_i h
    simp only [requestPass_eq]
    rfl
  · rfl

/-- A second request in the same event adds nothing. -/
@[simp] theorem withRequest_withRequest (s : State) : withRequest (withRequest s) = withRequest s := rfl

/-! ### The condition unit (R164) -/

/-- Latching a condition is latching its bit. -/
theorem latch_eq (c : Condition) (s : State) : latch c s = latchedWith c.flag s := rfl

/-- Latching a list of conditions touches the latched flags alone. -/
theorem latchAll_eq (cs : List Condition) (s : State) :
    latchAll cs s =
      { s with cond := { s.cond with latched := cs.foldl (fun f c => f ||| c.flag) s.cond.latched } } := by
  unfold latchAll
  induction cs generalizing s with
  | nil => rfl
  | cons c cs ih => simp only [List.foldl_cons]; rw [ih]; rfl

/-- CHARGE_DONE_x is bit 12 for A and bit 13 for B (11.1). -/
theorem latch_chargeDone (x : Cell) (s : State) : latch (.chargeDone x) s = latchedWith (cellFlag x 0x1000#26) s := by
  cases x <;> rfl
/-- CHARGE_FAULT_x is bit 14 for A and bit 15 for B (11.1). -/
theorem latch_chargeFault (x : Cell) (s : State) : latch (.chargeFault x) s = latchedWith (cellFlag x 0x4000#26) s := by
  cases x <;> rfl
/-- BRANCH_FAULT_x is bit 16 for A and bit 17 for B (11.1). -/
theorem latch_branchFault (x : Cell) (s : State) : latch (.branchFault x) s = latchedWith (cellFlag x 0x10000#26) s := by
  cases x <;> rfl
/-- CUTOFF_x is bit 20 for A and bit 21 for B (11.1). -/
theorem latch_cutoff (x : Cell) (s : State) : latch (.cutoff x) s = latchedWith (cellFlag x 0x100000#26) s := by
  cases x <;> rfl

/-! ### The reservation table (R2, R4) -/

/-- Reading a slot after a record is put. -/
theorem slotOf_putRecord (k j : Fin 24) (r : Record) (s : State) :
    slotOf (putRecord k r s) j = if j = k then { slotOf s k with record := some r } else slotOf s j := by
  by_cases h : j = k
  · subst h
    simp [slotOf, putRecord]
  · have h' : k.val ≠ j.val := fun e => h (Fin.ext e.symm)
    simp [slotOf, putRecord, h, h']

/-- Reading a record after one is put. -/
theorem recordOf_putRecord (k j : Fin 24) (r : Record) (s : State) :
    recordOf (putRecord k r s) j = if j = k then some r else recordOf s j := by
  unfold recordOf
  rw [slotOf_putRecord]
  split <;> rfl

/-- A put record keeps every generation (R2). -/
theorem gen_putRecord (k j : Fin 24) (r : Record) (s : State) : (slotOf (putRecord k r s) j).gen = (slotOf s j).gen := by
  rw [slotOf_putRecord]
  split
  · rename_i h
    rw [h]
  · rfl

/-- Reading a slot after one is freed (R2). -/
theorem slotOf_freeSlot (k j : Fin 24) (s : State) :
    slotOf (freeSlot k s) j = if j = k then ⟨(slotOf s k).gen + 1, none⟩ else slotOf s j := by
  by_cases h : j = k
  · subst h
    simp [slotOf, freeSlot]
  · have h' : k.val ≠ j.val := fun e => h (Fin.ext e.symm)
    simp [slotOf, freeSlot, h, h']

/-- Reading a record after a slot is freed. -/
theorem recordOf_freeSlot (k j : Fin 24) (s : State) :
    recordOf (freeSlot k s) j = if j = k then none else recordOf s j := by
  unfold recordOf
  rw [slotOf_freeSlot]
  split <;> rfl

/-- The sum of a list after one entry is replaced. -/
theorem sum_map_set {α : Type} (f : α → Nat) (l : List α) (n : Nat) (a : α) (h : n < l.length) :
    ((l.set n a).map f).sum + f l[n] = (l.map f).sum + f a := by
  induction l generalizing n with
  | nil => simp at h
  | cons b l ih =>
    cases n with
    | zero => simp; omega
    | succ n =>
      simp only [List.set_cons_succ, List.map_cons, List.sum_cons, List.getElem_cons_succ]
      have := ih n (by simpa using h)
      omega

/-- The granted sum after a slot is replaced: the old draw leaves and the new one enters (R4). -/
theorem grantedSum_setSlot (k : Fin 24) (sl : Slot) (s : State) :
    grantedSum { s with resv := { s.resv with slots := s.resv.slots.set k sl } } + grantedDraw (slotOf s k) =
      grantedSum s + grantedDraw sl := by
  have := sum_map_set grantedDraw s.resv.slots.toList k.val sl (by simp)
  simpa [grantedSum, slotOf, Vector.toList_set] using this

/-- The granted sum after a record is put (R4). -/
theorem grantedSum_putRecord (k : Fin 24) (r : Record) (s : State) :
    grantedSum (putRecord k r s) + grantedDraw (slotOf s k) =
      grantedSum s + (if r.st = .granted then r.draw else 0) :=
  grantedSum_setSlot k { slotOf s k with record := some r } s

/-- The granted sum after a slot is freed (R4, R11). -/
theorem grantedSum_freeSlot (k : Fin 24) (s : State) :
    grantedSum (freeSlot k s) + grantedDraw (slotOf s k) = grantedSum s :=
  grantedSum_setSlot k ⟨(slotOf s k).gen + 1, none⟩ s

/-- The granted sum depends on the table's slots alone. -/
theorem grantedSum_congr {s t : State} (h : t.resv.slots = s.resv.slots) : grantedSum t = grantedSum s := by
  simp [grantedSum, h]

/-! ### The published limits by their rules (R76, R86, R102) -/

/-- The discharge limit is what the steps of R86 give. -/
theorem idis_eq (s : State) (x : Cell) : idis s x = disLimit s x := by
  unfold idis disLimit kneeLimit socOf fullCount branchState Branch.state dataStateOf
  cases readingOf s x with
  | none => rfl
  | some r => cases x <;> dsimp only <;> (repeat' split) <;> simp_all

/-- The charge fraction of a cell's zone is its derating row's. -/
theorem zoneFraction_eq (s : State) (x : Cell) : zoneFraction s x = (derateOf s x).charge := by
  unfold zoneFraction derateOf; cases readingOf s x <;> rfl

/-- The charge ceiling is what the table of R102 gives. -/
theorem ichg_eq (s : State) (x : Cell) : ichg s x = chgCeiling s x := by
  unfold ichg chgCeiling
  rw [zoneFraction_eq]
  cases (s.chg.get x).phase <;> simp

/-- The state of charge is the per mille figure of R76. -/
theorem chargeLevel_eq (s : State) (x : Cell) : chargeLevel s x = soc s x := rfl

end Sys2Proof.Machine
end

