-- ==== Sys2Proof/Laws/Cells.lean ====
section
/-! SUPPORT. What the updates of charge control, branch protection and the cell monitors do, each said once. -/

namespace Sys2Proof.Machine

/-! ### Charge control (R29, R77, R95, R97, R98, R100, R101) -/

/-- A machine replaced: a change of phase requests a pass (R29). -/
theorem moveCharge_eq (x : Cell) (c : Charge) (s : State) : moveCharge x c s = withPhase x c s := by
  unfold moveCharge
  rw [requestPassIf_eq]
  by_cases h : c.phase = (s.chg.get x).phase
  · simp [h, withPhase, putCharge]
  · simp only [bne_iff_ne, ne_eq, h, not_false_eq_true, if_true, withPhase, putCharge, if_false]
    rfl

/-- A pass request after a machine has moved leaves the budget unit of the request alone. -/
theorem withRequest_withPhase_budget (x : Cell) (c : Charge) (s : State) :
    (withRequest (withPhase x c s)).budget = (withRequest s).budget := by
  unfold withPhase
  split <;> rfl

/-- An anchor sets the count of a cell that has a record, and does nothing else (R77). -/
theorem anchorCount_eq (x : Cell) (n : Nat) (s : State) : anchorCount x n s = withCount x n s := by
  unfold anchorCount withCount readingOf
  cases h : (s.mon.get x).rd with
  | some r => rfl
  | none =>
    rcases s with ⟨_, _, _, ⟨⟨ra, ea, fa⟩, ⟨rb, eb, fb⟩⟩, _⟩
    cases x <;> simp_all [PerCell.get, PerCell.set]

/-- Entry to FULL (R95). -/
theorem enterFull_eq (x : Cell) (s : State) :
    enterFull x s = latchedWith (cellFlag x 0x1000#26) (withCount x (s.lim.cap.get x * 3600000)
      (withPhase x { s.chg.get x with phase := .full, session := none, termRun := 0 } s)) := by
  unfold enterFull
  rw [latch_chargeDone, anchorCount_eq, moveCharge_eq]
  rfl

/-- Entry to FAULT (R101). -/
theorem enterChgFault_eq (x : Cell) (c : ChgFault) (s : State) :
    enterChgFault x c s = latchedWith (cellFlag x 0x4000#26)
      (withPhase x { s.chg.get x with phase := .fault c, session := none, ovRun := 0, termRun := 0 } s) := by
  unfold enterChgFault
  rw [latch_chargeFault, moveCharge_eq]

/-- A machine put twice is the second machine. -/
theorem withPhase_putCharge (x : Cell) (c d : Charge) (s : State) (h : c.phase = (s.chg.get x).phase) :
    withPhase x d (putCharge x c s) = withPhase x d s := by
  simp only [withPhase, putCharge, PerCell.set_set_self, PerCell.get_set_self, h]
  rfl

/-- A machine put in its own phase requests nothing. -/
theorem putCharge_eq_withPhase (x : Cell) (c : Charge) (s : State) (h : c.phase = (s.chg.get x).phase) :
    putCharge x c s = withPhase x c s := by
  simp [withPhase, putCharge, h]

/-- The loss of the input takes both machines out of their phases (R100). -/
theorem lossOfInput_chg (s : State) : (lossOfInput s).chg = ⟨withoutInput s.chg.a, withoutInput s.chg.b⟩ := by
  unfold lossOfInput lossOfInputAt enterOff
  simp only [moveCharge_eq]
  cases ha : s.chg.a.phase <;> cases hb : s.chg.b.phase <;>
    simp [PerCell.get, PerCell.set, withPhase, withoutInput, Phase.isFault, ha, hb]

/-- The loss of the input touches the machines and the pass request alone (R100). -/
theorem lossOfInput_eq (s : State) :
    lossOfInput s = { s with chg := (lossOfInput s).chg, budget := (lossOfInput s).budget } := by
  unfold lossOfInput lossOfInputAt enterOff
  simp only [moveCharge_eq]
  split <;> split <;> rfl

/-- After the loss of the input and a pass request, the budget unit is the requested one. -/
theorem withRequest_lossOfInput_budget (s : State) : (withRequest (lossOfInput s)).budget = (withRequest s).budget := by
  unfold lossOfInput lossOfInputAt enterOff
  simp only [moveCharge_eq]
  split <;> split <;> simp only [withRequest_withPhase_budget]

/-! ### Branch protection (R105, R106) -/

/-- A branch moved: where the worked state changes, a command it forbids becomes 0 and a pass is requested. -/
theorem moveBranch_eq (x : Cell) (b : Branch) (s : State) :
    moveBranch x b s =
      { s with
        br := s.br.set x b
        budget :=
          if b.state = branchState s x then s.budget
          else
            { (withRequest s).budget with
              cmd := if b.state.forbids (s.budget.cmd.get x) then s.budget.cmd.set x 0 else s.budget.cmd } } := by
  have hb : ∀ u : State, u.br = s.br.set x b → branchState u x = b.state := by
    intro u h
    simp [branchState, h]
  unfold moveBranch
  by_cases h : b.state = branchState s x
  · simp [h, putBranch]
  · simp only [h, if_false, requestPass_eq, zeroForbidden, hb _ (putBranch_br x b s), putBranch_budget]
    split <;> rfl

/-! ### Cell monitors (R74, R76) -/

/-- A count stays within 0..full (R74). -/
theorem countAfter_le (full count : Nat) (i : Int) : countAfter full count i ≤ full := by
  have := clampInt_mem 0 full ((count : Int) + i * 10) (by omega)
  unfold countAfter
  omega

/-- A count after a slot, as a meet of a join (R74). -/
theorem countAfter_eq (full count : Nat) (i : Int) :
    countAfter full count i = (min (full : Int) (max 0 ((count : Int) + i * 10))).toNat := by
  unfold countAfter
  rw [clampInt_eq_min_max _ _ _ (by omega)]

/-- A zone step is the plain rule of R81 and R82 wherever the edges keep their 5 °C. -/
theorem zoneAfter_eq_nextZone (l : Limits) (z : Zone) (t : Int) (h : edgesOk l.zoneEdges) :
    zoneAfter l t z = nextZone l.zoneEdges z t := by
  simp only [edgesOk, Bool.and_eq_true, decide_eq_true_eq] at h
  obtain ⟨⟨⟨⟨h0, h1⟩, h2⟩, h3⟩, h4⟩ := h
  cases z <;> simp only [zoneAfter, plainZone, nextZone] <;> split <;> (try split) <;> (try split) <;> (try split) <;>
    simp_all [nearerNormal, zoneReturn] <;> (repeat' split) <;> first | rfl | omega

/-- The plain zone is the step from NORMAL (R81). -/
theorem plainZone_eq_nextZone (l : Limits) (t : Int) : plainZone l t = nextZone l.zoneEdges .normal t := rfl

end Sys2Proof.Machine
end

