-- ==== Sys2Proof/Laws/Link.lean ====
section
/-! SUPPORT. What a frame does, said once: its edges, its answer, its bytes, and the rows that are whole frames. -/

namespace Sys2Proof.Machine

/-! ### Edges and answers (R155 to R159) -/

/-- The edges of a frame the port takes leave `afterEdges`, on which what is done with the frame acts. -/
theorem lselRiseWith_lselFall (s : State) (h : takesFrame s) (take : State → State) :
    lselRiseWith take (lselFall s) = take (afterEdges s) := by
  unfold takesFrame at h
  unfold lselRiseWith lselFall afterEdges beginFrame endFrame Config.frameLimit
  rcases s with ⟨⟨rx, hi, lo, ft, bf, ldo, sil⟩, _⟩
  cases hi <;> cases lo <;> cases rx <;> simp_all

/-- The rise that ends a frame in progress. -/
theorem lselRiseWith_receiving (s : State) (take : State → State) (h : s.link.rstnLow = false)
    (hl : s.link.lselHigh = false) (hr : s.link.rx = .receiving) : lselRiseWith take s = take (afterEdges s) := by
  unfold lselRiseWith afterEdges endFrame
  simp [h, hl, hr]

/-- A command carried out leaves its effect, its answer and the restarted silence timer. -/
theorem runCommand_eq (cmd : List Byte → State → Result) (args : List Byte) (s : State) :
    runCommand cmd args s = answered (cmd args s).st (cmd args s).out (cmd args s).payload := by
  unfold runCommand restartSilence placeAnswer answered restarted
  rfl

/-- A host command's row, where the port takes the frame: the command acts on the state after the edges. -/
theorem commandFrame_runCommand (cmd : List Byte → State → Result) (args : List Byte) (s : State) (h : takesFrame s)
    (hn : args.length ≤ 32) :
    commandFrame (runCommand cmd) args s =
      answered (cmd args (afterEdges s)).st (cmd args (afterEdges s)).out (cmd args (afterEdges s)).payload := by
  unfold commandFrame
  rw [lselRiseWith_lselFall s h]
  simp only [hn, if_true]
  exact runCommand_eq cmd args (afterEdges s)

/-- A refused command leaves the state after the edges, but for its answer (R158). -/
theorem commandFrame_refused (cmd : List Byte → State → Result) (args : List Byte) (s : State) (out : Outc)
    (h : takesFrame s) (hn : args.length ≤ 32) (hc : cmd args (afterEdges s) = refuse (afterEdges s) out) :
    commandFrame (runCommand cmd) args s = answered (afterEdges s) out [] := by
  rw [commandFrame_runCommand cmd args s h hn, hc]
  rfl

/-- The figures of a state do not depend on the link. -/
@[simp] theorem recordOf_afterEdges (s : State) (k : Fin 24) : recordOf (afterEdges s) k = recordOf s k := rfl
@[simp] theorem slotOf_afterEdges (s : State) (k : Fin 24) : slotOf (afterEdges s) k = slotOf s k := rfl
@[simp] theorem readingOf_afterEdges (s : State) (x : Cell) : readingOf (afterEdges s) x = readingOf s x := rfl
@[simp] theorem grantedSum_afterEdges (s : State) : grantedSum (afterEdges s) = grantedSum s := rfl
@[simp] theorem portCeiling_afterEdges (s : State) (p : PortId) : portCeiling (afterEdges s) p = portCeiling s p := rfl
@[simp] theorem branchState_afterEdges (s : State) (x : Cell) : branchState (afterEdges s) x = branchState s x := rfl
@[simp] theorem disLimit_afterEdges (s : State) (x : Cell) : disLimit (afterEdges s) x = disLimit s x := rfl
@[simp] theorem chgCeiling_afterEdges (s : State) (x : Cell) : chgCeiling (afterEdges s) x = chgCeiling s x := rfl
@[simp] theorem statusByte_afterEdges (s : State) : statusByte (afterEdges s) = statusByte s := rfl

/-! ### Bits and bytes (R155, R156, R170) -/

/-- The byte of the bits of a figure below 256 is that figure. -/
theorem byteOfBits_bitsOf (b : Byte) :
    byteOfBits (b.toNat.testBit 7) (b.toNat.testBit 6) (b.toNat.testBit 5) (b.toNat.testBit 4) (b.toNat.testBit 3)
      (b.toNat.testBit 2) (b.toNat.testBit 1) (b.toNat.testBit 0) = b := by
  revert b
  decide +kernel

/-- The whole bytes of the bits of a list of bytes, with more bits behind, are that list and the whole bytes behind. -/
theorem wholeBytes_bitsOfBytes (bs : List Byte) (extra : List Bool) :
    wholeBytes (bitsOfBytes bs ++ extra) = bs ++ wholeBytes extra := by
  induction bs with
  | nil => rfl
  | cons b bs ih =>
    have : bitsOfBytes (b :: bs) ++ extra = bitsOf 8 b.toNat ++ (bitsOfBytes bs ++ extra) := by
      simp [bitsOfBytes]
    rw [this]
    show byteOfBits _ _ _ _ _ _ _ _ :: wholeBytes (bitsOfBytes bs ++ extra) = _
    rw [ih, byteOfBits_bitsOf]
    rfl

/-- An unfinished byte is not counted (R156). -/
theorem wholeBytes_short (tail : List Bool) (h : tail.length < 8) : wholeBytes tail = [] := by
  rcases tail with _ | ⟨_, _ | ⟨_, _ | ⟨_, _ | ⟨_, _ | ⟨_, _ | ⟨_, _ | ⟨_, _ | ⟨_, tl⟩⟩⟩⟩⟩⟩⟩⟩ <;>
    first | rfl | (simp at h; omega)

/-- The two bytes of a figure read back (R170). -/
theorem unsignedOf_two (hi lo : Byte) : unsignedOf [hi, lo] = word2 hi lo := by
  simp [unsignedOf, word2]

/-- `n` bytes of a figure below 256 ^ n read back (R170). -/
theorem unsignedOf_bytesOf (n v : Nat) (h : v < 256 ^ n) : unsignedOf (bytesOf n v) = v := by
  have len : ∀ (n v : Nat), (bytesOf n v).length = n := by
    intro n
    induction n with
    | zero => intro v; rfl
    | succ n ih => intro v; simp [bytesOf, ih]
  have key : ∀ (n v : Nat), unsignedOf (bytesOf n v) = v % 256 ^ n := by
    intro n
    induction n with
    | zero => intro v; simp [bytesOf, unsignedOf, Nat.mod_one]
    | succ n ih =>
      intro v
      have e : v / 256 ^ n % 256 * 256 ^ n + v % 256 ^ n = v % 256 ^ (n + 1) := by
        rw [Nat.pow_succ, Nat.mod_mul, Nat.mul_comm, Nat.add_comm]
      simp [bytesOf, unsignedOf, len, ih, e]
  rw [key, Nat.mod_eq_of_lt h]

/-- The length of `n` bytes of a figure. -/
@[simp] theorem length_bytesOf (n v : Nat) : (bytesOf n v).length = n := by
  induction n with
  | zero => rfl
  | succ n ih => simp [bytesOf, ih]

/-! ### The hinge sense line and LDO (R158, R170, R171, R175, R176) -/

/-- The byte of the bits of a byte is that byte. -/
theorem byteOfBits_getLsbD (b : Byte) :
    byteOfBits (b.getLsbD 7) (b.getLsbD 6) (b.getLsbD 5) (b.getLsbD 4) (b.getLsbD 3) (b.getLsbD 2) (b.getLsbD 1)
      (b.getLsbD 0) = b := by
  revert b; decide

/-- The data bits of a SAMPLE on the line read back as that SAMPLE. -/
theorem sampleOfLine_sampleLine (m : SampleMsg) : sampleOfLine (sampleLine m) = some m := by
  simp only [sampleOfLine, sampleLine, List.flatMap_cons, List.flatMap_nil, List.range, List.range.loop, List.map_cons, List.map_nil,
    List.cons_append, List.nil_append, lineBytes, byteOfBits_getLsbD]

/-- A line holds a byte for every eight bits. -/
theorem lineBytes_length : ∀ line : List Bool, (lineBytes line).length = line.length / 8
  | _ :: _ :: _ :: _ :: _ :: _ :: _ :: _ :: rest => by
    simp only [lineBytes, List.length_cons, lineBytes_length rest]; omega
  | [] | [_] | [_, _] | [_, _, _] | [_, _, _, _] | [_, _, _, _, _] | [_, _, _, _, _, _] | [_, _, _, _, _, _, _] => by
    simp [lineBytes]

/-- A line of other than nine whole bytes is no SAMPLE. -/
theorem sampleOfLine_eq_none (line : List Bool) (h : line.length / 8 ≠ 9) : sampleOfLine line = none := by
  rw [← lineBytes_length] at h
  unfold sampleOfLine
  split
  · simp_all
  · rfl

/-- The bits of the byte of eight bits are those bits. -/
theorem getLsbD_byteOfBits (b7 b6 b5 b4 b3 b2 b1 b0 : Bool) :
    ((List.range 8).map fun i => (byteOfBits b7 b6 b5 b4 b3 b2 b1 b0).getLsbD i) = [b0, b1, b2, b3, b4, b5, b6, b7] := by
  revert b7 b6 b5 b4 b3 b2 b1 b0
  decide

/-- The bits of the bytes of a line of whole bytes are that line. -/
theorem flatMap_lineBytes : ∀ line : List Bool, line.length % 8 = 0 →
    ((lineBytes line).flatMap fun b => (List.range 8).map fun i => b.getLsbD i) = line
  | b0 :: b1 :: b2 :: b3 :: b4 :: b5 :: b6 :: b7 :: rest, h => by
    have hr : rest.length % 8 = 0 := by simp only [List.length_cons] at h; omega
    simp only [lineBytes, List.flatMap_cons, getLsbD_byteOfBits, flatMap_lineBytes rest hr, List.cons_append, List.nil_append]
  | [], _ => rfl
  | [_], h | [_, _], h | [_, _, _], h | [_, _, _, _], h | [_, _, _, _, _], h | [_, _, _, _, _, _], h | [_, _, _, _, _, _, _], h => by
    simp at h

/-- Every line of nine whole bytes is the line of a SAMPLE. -/
theorem exists_sampleLine (line : List Bool) (h : line.length = 72) : ∃ m, sampleLine m = line := by
  have hb : (lineBytes line).length = 9 := by rw [lineBytes_length, h]
  have hf := flatMap_lineBytes line (by rw [h])
  match hl : lineBytes line, hb with
  | [timing, seq, vHi, vLo, iHi, iLo, temp, flags, check], _ =>
    exact ⟨⟨timing, seq, vHi, vLo, iHi, iLo, temp, flags, check⟩, by rw [hl] at hf; exact hf⟩

/-- A byte crosses the control link in eight bits. -/
theorem length_bitsOfBytes (bs : List Byte) : (bitsOfBytes bs).length = 8 * bs.length := by
  induction bs with
  | nil => rfl
  | cons b bs ih =>
    have e : bitsOfBytes (b :: bs) = bitsOf 8 b.toNat ++ bitsOfBytes bs := rfl
    rw [e, List.length_append, ih, List.length_cons]
    simp only [bitsOf, List.length_cons, List.length_nil]
    omega

/-- After the last bit of an answer LDO shifts out zeros for as long as the host clocks (R171). -/
theorem ldoBit_past (s : State) (a : Answer) (k : Nat) (h : s.link.ldo = some a) (hk : 8 * (4 + a.payload.length) ≤ k) :
    ldoBit s k = false := by
  have e : (bitsOfBytes (answerBytes a))[k]? = none := by
    rw [List.getElem?_eq_none]
    simp only [length_bitsOfBytes, answerBytes, List.length_append, List.length_cons, List.length_nil]
    omega
  unfold ldoBit
  simp [h, e]

end Sys2Proof.Machine
end

