-- ==== Sys2Proof/Laws/Ports.lean ====
section
/-! SUPPORT. What a port step and the arbiter's moves do, each said once. -/

namespace Sys2Proof.Machine

/-- The arbiter leaves ACTIVE: the switch opens (R146). -/
theorem leaveActive_eq (dest : ArbState) (s : State) : leaveActive dest s = switchOpened dest s := by
  unfold leaveActive openSwitch
  rw [requestPass_eq, lossOfInput_eq, lossOfInput_chg]
  have hb := withRequest_lossOfInput_budget
    { s with arb := { st := dest, brk := some Config.breakBeforeMake }, budget := { s.budget with inputCmd := none } }
  unfold switchOpened
  unfold withRequest at hb ⊢
  simp only at hb ⊢
  rw [hb]
  rfl

/-- The arbiter closes the switch of a port that holds a contract (R146). -/
theorem goActive_eq (p : PortId) (h : Held) (s : State) (hh : (s.port.get p).held = some h) :
    goActive p s = switchedTo p h s := by
  unfold goActive activatePort switchedTo
  simp only [hh, requestPass_eq]
  rfl

/-- The arbiter moves between NONE and CHANGEOVER (R146). -/
theorem goIdle_eq (dest : ArbState) (s : State) :
    goIdle dest s = withRequest { s with arb := { s.arb with st := dest } } := requestPass_eq _

/-- An eligible port holds a contract (R139). -/
theorem Port.held_of_eligible {q : Port} (h : q.eligible) : ∃ c, q.held = some c := by
  unfold Port.eligible at h
  cases hq : q.held with
  | none => simp [hq] at h
  | some c => exact ⟨c, rfl⟩

/-- A port step before the arbiter: the record replaced, its conditions latched, and a pass requested where the held voltage or
current changes (R140, R164). -/
def portStepped (p : PortId) (w : PortStep) (s : State) : State :=
  { s with
    port := s.port.set p w.port
    budget := if contractOf (s.port.get p) = contractOf w.port then s.budget else (withRequest s).budget
    cond := { s.cond with latched := w.conds.foldl (fun f c => f ||| c.flag) s.cond.latched } }

/-- A port step: the record, then the arbiter's part where eligibility changes (R139). -/
theorem stepPort_eq (p : PortId) (w : PortStep) (s : State) :
    stepPort p w s = handEligibility p (s.port.get p).eligible (portStepped p w s) := by
  unfold stepPort portStepped
  simp only [requestPassIf_eq, latchAll_eq]
  by_cases h : contractOf (s.port.get p) = contractOf w.port
  · simp [h]
  · simp only [bne_iff_ne, ne_eq, h, not_false_eq_true, if_true, if_false]
    rfl

/-- A port step that leaves eligibility alone does not reach the arbiter (R139). -/
theorem stepPort_of_same_eligibility (p : PortId) (w : PortStep) (s : State)
    (h : (s.port.get p).eligible = w.port.eligible) : stepPort p w s = portStepped p w s := by
  rw [stepPort_eq]
  unfold handEligibility
  have : eligible (portStepped p w s) p = w.port.eligible := by simp [eligible, portStepped]
  rw [this, if_pos h]

/-- What a port step leaves alone, whatever the arbiter does. -/
theorem handEligibility_frame (p : PortId) (b : Bool) (s : State) :
    ∃ port budget chg arb, handEligibility p b s =
      { s with port := port, budget := budget, chg := chg, arb := arb } := by
  unfold handEligibility arbLoss arbGain
  have self : ∃ port budget chg arb, s = { s with port := port, budget := budget, chg := chg, arb := arb } :=
    ⟨s.port, s.budget, s.chg, s.arb, rfl⟩
  have opened : ∀ d, ∃ port budget chg arb, leaveActive d s =
      { s with port := port, budget := budget, chg := chg, arb := arb } := by
    intro d
    rw [leaveActive_eq]
    exact ⟨_, _, _, _, rfl⟩
  have idle : ∀ d, ∃ port budget chg arb, goIdle d s =
      { s with port := port, budget := budget, chg := chg, arb := arb } := by
    intro d
    rw [goIdle_eq]
    exact ⟨_, _, _, _, rfl⟩
  have active : ∃ port budget chg arb, goActive p s =
      { s with port := port, budget := budget, chg := chg, arb := arb } := by
    unfold goActive activatePort
    rw [requestPass_eq]
    dsimp only
    split <;> exact ⟨_, _, _, _, rfl⟩
  split
  · exact self
  · split
    · split
      · split
        · exact opened _
        · exact self
      · exact self
      · exact self
    · split
      · split
        · exact idle _
        · exact active
      · split
        · exact opened _
        · exact self
      · exact self

end Sys2Proof.Machine
end

