-- ==== Sys2Proof/Laws/Pass.lean ====
section
/-! SUPPORT. What the stages of a budget pass leave alone, each said once, and that a step never faults or refuses. -/

namespace Sys2Proof.Machine

/-- States that differ in the table and the condition unit alone. -/
def sameButTable (s t : State) : Prop := t = { s with resv := t.resv, cond := t.cond }

theorem sameButTable_refl (s : State) : sameButTable s s := rfl

theorem sameButTable_trans {s t u : State} (h : sameButTable s t) (g : sameButTable t u) : sameButTable s u := by
  unfold sameButTable at *
  rw [g, h]

/-- The droop step moves the active port alone (R141). -/
theorem droopStep_frame (s : State) : droopStep s = { s with port := (droopStep s).port } := by
  unfold droopStep
  split
  · rfl
  · dsimp only
    split <;> rfl

/-- The equalizer stage touches the table alone (R65, R66). -/
theorem equalizerStage_frame (u : Nat) (s : State) : sameButTable s (equalizerStage u s) := by
  unfold equalizerStage
  split
  · split
    · rfl
    · rfl
  · split
    · rfl
    · rfl

/-- A shed verdict touches the table alone (R17). -/
theorem shedVerdict_frame (k : Fin 24) (s : State) : sameButTable s (shedVerdict k s) := by
  unfold shedVerdict
  split <;> rfl

/-- The shedding loop touches the table and the counters alone (R41). -/
theorem shedLoop_frame (level : Int) (u n : Nat) (w : Shed) : sameButTable w.st (shedLoop level u n w).st := by
  induction n generalizing w with
  | zero => rfl
  | succ n ih =>
    unfold shedLoop
    split
    · rfl
    · split
      · rfl
      · rename_i k r _
        have counted : sameButTable (shedVerdict k w.st) (count .recordsShed (shedVerdict k w.st)) := rfl
        exact sameButTable_trans (sameButTable_trans (shedVerdict_frame k w.st) counted) (ih _)

/-- The shedding stage touches the table and the condition unit alone (R41, R43). -/
theorem shedStage_frame (level : Int) (u : Nat) (s : State) : sameButTable s (shedStage level u s).st := by
  have h := shedLoop_frame level u 24 ⟨s, 0, false⟩
  unfold shedStage
  dsimp only
  have latched : ∀ (c : Condition) (t : State), sameButTable t (latch c t) := fun _ _ => rfl
  split <;> split
  · exact sameButTable_trans h (latched _ _)
  · exact sameButTable_trans (sameButTable_trans h (latched _ _)) (latched _ _)
  · exact h
  · exact sameButTable_trans h (latched _ _)

/-- A no-room verdict touches the table alone (R16). -/
theorem noRoomVerdict_frame (k : Fin 24) (s : State) : sameButTable s (noRoomVerdict k s) := by
  unfold noRoomVerdict
  split
  · rfl
  · split <;> rfl

/-- A grant verdict touches the table alone (R15). -/
theorem grantVerdict_frame (k : Fin 24) (s : State) : sameButTable s (grantVerdict k s) := by
  unfold grantVerdict
  split <;> rfl

/-- One candidate of the walk touches the table alone (R46). -/
theorem walkStep_frame (level : Int) (u : Nat) (w : Walk) (c : Candidate) : sameButTable w.st (walkStep level u w c).st := by
  unfold walkStep
  split
  · exact noRoomVerdict_frame _ _
  · split
    · exact grantVerdict_frame _ _
    · exact noRoomVerdict_frame _ _

/-- The admission stage touches the table alone (R45, R46). -/
theorem admitStage_frame (level : Int) (u : Nat) (s : State) : sameButTable s (admitStage level u s).st := by
  have walk : ∀ (cs : List Candidate) (w : Walk), sameButTable w.st (cs.foldl (walkStep level u) w).st := by
    intro cs
    induction cs with
    | nil => intro w; rfl
    | cons c cs ih => intro w; exact sameButTable_trans (walkStep_frame level u w c) (ih _)
  exact walk (candidates s) ⟨s, none, 0⟩

/-- The split stage touches the table alone, where it stops the equalizer (R55). -/
theorem splitStage_frame (c : Capability) (u : Nat) (s : State) : sameButTable s (splitStage c u s).st := by
  unfold splitStage
  dsimp only
  split
  · unfold plainSplit
    split <;> rfl
  · split
    · rfl
    · unfold transferSplit
      split <;> rfl

/-- Every row has a next state in every state: the model neither faults nor refuses. -/
theorem exec_eq_next (i : Instr) (s : State) : ∃ t, exec i s = .next t := by
  cases i <;> exact ⟨_, rfl⟩

/-- Every step has a next state. -/
theorem step_eq_next (s : State) : ∃ t, step s = .next t := by
  unfold step
  split
  · exact exec_eq_next _ _
  · split
    · exact exec_eq_next _ _
    · exact ⟨_, rfl⟩

/-- An invariant that every row and the passing of a millisecond keep, whatever the queue, is kept by every step. -/
theorem step_keeps (Inv : State → Prop) (queue : ∀ (s : State) (q : List Instr), Inv s → Inv { s with pending := q })
    (row : ∀ (i : Instr) (s t : State), Inv s → exec i s = .next t → Inv t) (time : ∀ s, Inv s → Inv (advance s))
    (s t : State) (h : Inv s) (hs : step s = .next t) : Inv t := by
  unfold step at hs
  split at hs
  · exact row _ _ _ (queue s _ h) hs
  · split at hs
    · exact row _ _ _ h hs
    · cases hs
      exact time s h

/-! ### The stages by their rules (R52 to R54, R61, R65, R66) -/

/-- The charge cap is the one of R54. -/
theorem chargeCapAt_eq (s : State) (x : Cell) (c : Nat) : chargeCapAt s x c = chargeCap s x (cellVolt s x) c := by
  unfold chargeCapAt chargeCap dataStateOf
  cases x <;> cases branchState s _ <;> cases s.hinge.dataState <;> simp [BranchState.isOpen, DataState.holds]

/-- The checks of a command are those of R61. -/
theorem commandChecked_eq (s : State) (x : Cell) (low : Bool) (c : Int) : commandChecked s x low c = checkCommand s x low c := by
  unfold commandChecked checkCommand dataStateOf
  generalize branchState s x = b
  generalize (s.chg.get x).phase = p
  have hf : (∃ f ∈ [ChgFault.overvoltage, .prechargeTimeout, .chargeTimeout], p = .fault f) ↔ p.isFault = true := by
    cases p with
    | fault f => cases f <;> simp [Phase.isFault]
    | _ => simp [Phase.isFault]
  simp only [hf]
  by_cases h0 : c = 0
  · subst h0
    cases b <;> simp [BranchState.forbids]
  · cases x <;> cases b <;> cases s.hinge.dataState <;> cases low <;> simp [BranchState.forbids, DataState.holds, h0]

/-- The share of cell A is the one of R52 and R53. -/
theorem shareOf_eq (s : State) (charge : Bool) : shareOf s charge = shareA s charge := by
  have hd : ∀ a b : Nat, (a - b) + (b - a) = absDiff a b := by intro a b; unfold absDiff; split <;> omega
  unfold shareOf shareA balanceTerm capacityShare
  rw [clampInt_eq_min_max 0 1024 _ (by omega)]
  simp only [chargeLevel_eq, hd]
  cases soc s .A <;> cases soc s .B <;> by_cases h : s.hinge.dataState = .awaiting <;> cases charge <;> simp [h, PerCell.get]

/-- What R65 and R66 ask in common of a transfer. -/
theorem mayTransfer_eq (s : State) (low : Cell) :
    mayTransfer s low = (transferAllowed s s.load.U && lowCellReady s low) := by
  have hf : (∀ f ∈ [ChgFault.overvoltage, .prechargeTimeout, .chargeTimeout], (s.chg.get low).phase ≠ .fault f) ↔
      (s.chg.get low).phase.isFault = false := by
    cases (s.chg.get low).phase with
    | fault f => cases f <;> simp [Phase.isFault]
    | _ => simp [Phase.isFault]
  rw [Bool.eq_iff_iff]
  simp only [mayTransfer, transferAllowed, lowCellReady, hf, zoneFraction_eq, Bool.and_eq_true, bne_iff_ne, ne_eq,
    beq_iff_eq, Bool.not_eq_true', decide_eq_true_eq]
  simp only [systemLoad]
  tauto

/-- The equalizer starts where R65 says. -/
theorem startsTransfer_eq (s : State) : startsTransfer s = startDir s s.load.U := by
  have hd : ∀ a b : Nat, (a - b) + (b - a) = absDiff a b := by intro a b; unfold absDiff; split <;> omega
  unfold startsTransfer startDir
  simp only [chargeLevel_eq, hd, mayTransfer_eq, transferDir]
  cases soc s .A <;> cases soc s .B <;> try rfl
  rename_i a b
  by_cases h : s.lim.eqStart ≤ absDiff a b <;> by_cases g : b < a <;> simp [h, g, Dir.low]

/-- The equalizer goes on where R66 does not stop it. -/
theorem keepsTransfer_eq (s : State) (d : Option Dir) : keepsTransfer s d = !stopsTransfer s s.load.U (d.getD .aToB) := by
  unfold keepsTransfer stopsTransfer socGap
  simp only [chargeLevel_eq, mayTransfer_eq]
  rw [Bool.eq_iff_iff]
  rcases d with _ | d
  · simp [Dir.low, Dir.source]
    omega
  · cases d <;> simp [Dir.low, Dir.source] <;> omega

/-- The equalizer stage leaves what R18, R65 and R66 say. -/
theorem equalized_eq (s : State) : equalized s = equalizerStage s.load.U s := by
  unfold equalized equalizerStage
  simp only [startsTransfer_eq, keepsTransfer_eq]
  cases recordOf s 0 with
  | none => dsimp only; cases startDir s s.load.U <;> rfl
  | some r => dsimp only; cases stopsTransfer s s.load.U (r.dir.getD .aToB) <;> rfl

end Sys2Proof.Machine
end

