-- ==== Sys2Proof/Laws/Time.lean ====
section
/-! SUPPORT. The expiry taken on an empty queue: `dueEvent` gives a timer that stands at its end, and none exactly where no timer
does. -/

namespace Sys2Proof.Machine

/-! ### When the expiry rows of a record and of a charge session act (1.6, 1.8, 5.8) -/

@[simp] theorem Record.lifetimeDue_iff (r : Record) : r.lifetimeDue = true ↔ r.live = true ∧ r.lifeRem = some 0 := by
  simp [Record.lifetimeDue]

@[simp] theorem Record.burstDue_iff (r : Record) :
    r.burstDue = true ↔ r.st = .granted ∧ r.kind = .burst ∧ r.burstRem = some 0 := by
  simp [Record.burstDue, and_assoc]

@[simp] theorem Record.burstTotalDue_iff (r : Record) :
    r.burstTotalDue = true ↔ r.st = .granted ∧ r.kind = .burst ∧ r.burstTot = some Config.burstTotalMax := by
  simp [Record.burstTotalDue, and_assoc]

@[simp] theorem Record.waitLimitDue_iff (r : Record) :
    r.waitLimitDue = true ↔ r.live = true ∧ r.st ≠ .granted ∧ r.waitRem = some 0 := by
  simp [Record.waitLimitDue, and_assoc]

@[simp] theorem Charge.prechargeDue_iff (c : Charge) :
    c.prechargeDue = true ↔ c.phase = .precharge ∧ ∃ q, c.session = some q ∧ q.pre = 0 := by
  cases h : c.session <;> simp [Charge.prechargeDue, h]

@[simp] theorem Charge.fastDue_iff (c : Charge) :
    c.fastDue = true ↔ (c.phase = .fast ∨ c.phase = .taper) ∧ ∃ q, c.session = some q ∧ q.fast = 0 := by
  cases h : c.session <;> simp [Charge.fastDue, h]

/-- An expiry row ends the record whose timer it is, or changes nothing (R26). -/
theorem expireWhere_cases (due : Record → Bool) (k : Fin 24) (c : EndCause) (s : State) :
    (∃ r, recordOf s k = some r ∧ due r = true ∧ expireWhere due k c s = endRecord k c s) ∨ expireWhere due k c s = s := by
  cases hr : recordOf s k with
  | none => simp [expireWhere, hr]
  | some r => cases hd : due r <;> simp [expireWhere, hr, hd]

/-! ### The expiry taken on an empty queue (1.6) -/

/-- A due row is one of those the blocks have due. -/
theorem mem_of_dueEvent {s : State} {e : Instr} (h : dueEvent s = some e) :
    dueOfLink s.link = some e ∨ (∃ k, dueOfSlot s k = some e) ∨ dueOfCharge s .A = some e ∨ dueOfCharge s .B = some e ∨
      dueOfHinge s.hinge = some e ∨ dueOfPort s .cable = some e ∨ dueOfPort s .coil = some e ∨ dueOfBudget s = some e := by
  obtain ⟨o, ho, he⟩ := List.exists_of_findSome?_eq_some h
  cases he
  simp only [List.mem_append, List.mem_cons, List.not_mem_nil, or_false, List.mem_map, List.mem_finRange, true_and] at ho
  rcases ho with (h | ⟨k, h⟩) | h | h | h | h | h | h
  · exact .inl h.symm
  · exact .inr (.inl ⟨k, h⟩)
  · exact .inr (.inr (.inl h.symm))
  · exact .inr (.inr (.inr (.inl h.symm)))
  · exact .inr (.inr (.inr (.inr (.inl h.symm))))
  · exact .inr (.inr (.inr (.inr (.inr (.inl h.symm)))))
  · exact .inr (.inr (.inr (.inr (.inr (.inr (.inl h.symm))))))
  · exact .inr (.inr (.inr (.inr (.inr (.inr (.inr h.symm))))))

/-- Where no row is due, no block has one due. -/
theorem none_of_dueEvent {s : State} (h : dueEvent s = none) :
    dueOfLink s.link = none ∧ (∀ k, dueOfSlot s k = none) ∧ (∀ x, dueOfCharge s x = none) ∧ dueOfHinge s.hinge = none ∧
      (∀ p, dueOfPort s p = none) ∧ dueOfBudget s = none := by
  have g := List.findSome?_eq_none_iff.1 h
  simp only [List.mem_append, List.mem_cons, List.not_mem_nil, or_false, List.mem_map, List.mem_finRange, true_and, id] at g
  refine ⟨g _ (.inl (.inl rfl)), fun k => g _ (.inl (.inr ⟨k, rfl⟩)), fun x => ?_, g _ (by simp), fun p => ?_, g _ (by simp)⟩
  · cases x <;> exact g _ (by simp)
  · cases p <;> exact g _ (by simp)

/-- A due row is the expiry of a timer that stands at its end. -/
theorem atEnd_of_dueEvent {s : State} {e : Instr} (h : dueEvent s = some e) : TimerAtEnd s e := by
  rcases mem_of_dueEvent h with h | ⟨k, h⟩ | h | h | h | h | h | h
  · unfold dueOfLink at h
    split at h
    · cases h; rename_i c; exact .frame c.2 c.1
    · split at h
      · cases h; rename_i c; exact .silence c
      · cases h
  · unfold dueOfSlot at h
    split at h
    · cases h
    · rename_i r hr
      split at h
      · cases h; rename_i c; have c := r.lifetimeDue_iff.1 c; exact .lifetime k r hr c.1 c.2
      · split at h
        · cases h; rename_i c; have c := r.burstTotalDue_iff.1 c; exact .burstTotal k r hr c.1 c.2.1 c.2.2
        · split at h
          · cases h; rename_i c; have c := r.burstDue_iff.1 c; exact .burst k r hr c.1 c.2.1 c.2.2
          · split at h
            · cases h; rename_i c; have c := r.waitLimitDue_iff.1 c; exact .waitLimit k r hr c.1 c.2.1 c.2.2
            · cases h
  · exact ofCharge h
  · exact ofCharge h
  · unfold dueOfHinge at h
    split at h
    · cases h; rename_i c; exact .degraded c.2 c.1
    · split at h
      · cases h; rename_i c; exact .replyWindow _ c
      · cases h; rename_i c _; exact .hslBreak c
      · cases h
  · exact ofPort h
  · exact ofPort h
  · unfold dueOfBudget at h
    split at h
    · cases h; rename_i c; exact .breakWait c
    · split at h
      · cases h; rename_i c; exact .foldSettle c
      · split at h
        · cases h; rename_i c; exact .requestDelay c
        · split at h
          · cases h; rename_i c; exact .pass c
          · cases h
where
  ofCharge {x : Cell} (h : dueOfCharge s x = some e) : TimerAtEnd s e := by
    unfold dueOfCharge at h
    split at h
    · cases h; rename_i c; obtain ⟨hp, q, hq, hz⟩ := (Charge.prechargeDue_iff _).1 c; exact .precharge x q hp hq hz
    · split at h
      · cases h; rename_i c; obtain ⟨hp, q, hq, hz⟩ := (Charge.fastDue_iff _).1 c; exact .fast x q hp hq hz
      · cases h
  ofPort {p : PortId} (h : dueOfPort s p = some e) : TimerAtEnd s e := by
    unfold dueOfPort at h
    split at h
    · rename_i ht
      split at h <;> cases h <;> rename_i hs
      · exact .offerWindow p hs ht
      · exact .confirm p hs ht
      · exact .verify p hs ht
    · cases h

/-- Where no row is due, no timer stands at its end. -/
theorem not_atEnd_of_dueEvent {s : State} (h : dueEvent s = none) (e : Instr) : ¬TimerAtEnd s e := by
  obtain ⟨hl, hk, hc, hh, hp, hb⟩ := none_of_dueEvent h
  intro a
  cases a with
  | frame a b => simp [dueOfLink, a, b] at hl
  | silence a => by_cases c : s.link.frameTimer = some 0 ∧ s.link.rx = .receiving <;> simp [dueOfLink, a, c] at hl
  | lifetime k r a b c => have := hk k; simp [dueOfSlot, a, b, c] at this
  | burst k r a b c d => have := hk k; simp [dueOfSlot, a, b, c, d, Record.live] at this; (repeat' split at this) <;> cases this
  | burstTotal k r a b c d =>
    have := hk k
    simp [dueOfSlot, a, b, c, d, Record.live, Config.burstTotalMax] at this
    split at this <;> cases this
  | waitLimit k r a b d c => have := hk k; simp [dueOfSlot, a, b, c, d] at this; (repeat' split at this) <;> cases this
  | precharge x q a b c => have := hc x; simp [dueOfCharge, a, b, c] at this
  | fast x q a b c => have := hc x; rcases a with a | a <;> simp [dueOfCharge, a, b, c] at this
  | degraded a b => simp [dueOfHinge, a, b] at hh
  | replyWindow b a => unfold dueOfHinge at hh; rw [a] at hh; split at hh <;> simp at hh
  | hslBreak a =>
    unfold dueOfHinge at hh
    split at hh
    · cases hh
    · split at hh <;> simp_all
  | offerWindow p a b => have := hp p; simp [dueOfPort, a, b] at this
  | confirm p a b => have := hp p; simp [dueOfPort, a, b] at this
  | verify p a b => have := hp p; simp [dueOfPort, a, b] at this
  | breakWait a => simp [dueOfBudget, a] at hb
  | foldSettle a => simp [dueOfBudget, a] at hb; split at hb <;> cases hb
  | requestDelay a => simp [dueOfBudget, a] at hb; (repeat' split at hb) <;> cases hb
  | pass a => simp [dueOfBudget, a] at hb; (repeat' split at hb) <;> cases hb

end Sys2Proof.Machine
end

