-- ==== Sys2Proof/WellFormed.lean ====
section
/-! DEFINITION. Which terms of `Instr` stand for something that can reach the block. -/

namespace Sys2Proof

/-- A frame's argument list holds at most 32 bytes (R171); a longer one is an erred frame (R156), not a command. -/
def argsWF (args : List Byte) : Bool := args.length ≤ 32

/-- The record timers are those of host records, in slots 1 to 23 (R1, section 1.6). -/
def hostSlotWF (k : Fin 24) : Bool := k != 0

/-- A BAD_REPLY_FRAMING ends a measure outside 220,000..280,000 bit/s, or a low shorter than 80 µs (R119). -/
def framingWF : FramingCause → Bool
  | .rate ns => !(220000 * ns ≤ 9000000000 && 9000000000 ≤ 280000 * ns)
  | .lowStop ns => ns < 80000

/-- Well-formedness of a command or event. A SAMPLE read whole is nine bytes of eight data bits (R175). -/
def Instr.wf : Instr → Bool
  | .powerOnReset => true
  | .rstnLow => true
  | .lselFall => true
  | .lselRise _ => true
  | .frameTimerExpiry => true
  | .nop args => argsWF args
  | .reset args => argsWF args
  | .reserve args => argsWF args
  | .adjust args => argsWF args
  | .renew args => argsWF args
  | .release args => argsWF args
  | .query args => argsWF args
  | .collect args => argsWF args
  | .readBudget args => argsWF args
  | .readCell args => argsWF args
  | .readInput args => argsWF args
  | .offers args => argsWF args
  | .applied args => argsWF args
  | .isolate args => argsWF args
  | .isolateCell args => argsWF args
  | .clearFault args => argsWF args
  | .setLimit args => argsWF args
  | .getLimit args => argsWF args
  | .lockLimits args => argsWF args
  | .readConditions args => argsWF args
  | .setMasks args => argsWF args
  | .readCounters args => argsWF args
  | .silenceTimerExpiry => true
  | .lifetimeExpiry k => hostSlotWF k
  | .burstExpiry k => hostSlotWF k
  | .burstTotalExpiry k => hostSlotWF k
  | .waitLimitExpiry k => hostSlotWF k
  | .passTimerExpiry => true
  | .requestDelayExpiry => true
  | .foldLevelChange _ => true
  | .foldSettleExpiry => true
  | .cellASample _ _ _ _ => true
  | .cellOvervoltageRun _ => true
  | .terminationRun _ => true
  | .prechargeTimerExpiry _ => true
  | .fastTimerExpiry _ => true
  | .dischargeOvercurrentRun _ => true
  | .chargeOvercurrentRun _ => true
  | .cutoffRun _ => true
  | .systemLoadSample _ => true
  | .overdrawOn => true
  | .overdrawOff => true
  | .hingeSlot _ => true
  | .pollCollision => true
  | .pollComplete => true
  | .replyWindowExpiry _ => true
  | .sample line _ => line.length == 72
  | .farBreak => true
  | .hslBreakEnd => true
  | .failureRun => true
  | .goodRun _ => true
  | .degradedTimerExpiry => true
  | .inputSample _ _ => true
  | .attachRun _ => true
  | .detachRun _ => true
  | .inputOvervoltageRun _ => true
  | .offerWindowExpiry _ => true
  | .confirmTimerExpiry _ => true
  | .verifyWindowExpiry _ => true
  | .breakTimerExpiry => true
  | .dieSample _ => true
  | .rstnRise => true
  | .badReplyFraming cause => framingWF cause

end Sys2Proof
end

