-- ==== Sys2Proof/Tests/Slice0.lean ====
section
/-! SUPPORT. The author's own tests: refused ill-formed terms, the spec's worked figures (each names its section), and for
every obligation with hypotheses a state and operands that meet them (witness_<obligation>). -/

namespace Sys2Proof.Tests
open Sys2Proof Sys2Proof.Machine

/- One theorem after the other: kernel evaluations that wait for each other take a thread each. -/
set_option Elab.async false

/-! ### Helpers -/

/-- The state a row leaves. -/
def after (i : Instr) (s : State) : State :=
  match exec i s with
  | .next t => t
  | .fault _ => s
  | .refused _ => s

/-- The outcome and payload of the answer held. -/
def answer (s : State) : Option (Outc × List Byte) := s.link.buffer.map fun a => (a.out, a.payload)

/-- The state after a list of rows. -/
def afterAll (is : List Instr) (s : State) : State := is.foldl (fun t i => after i t) s

/-- A GRANTED STEADY record of the worked table (1.10). -/
def steady (owner prio draw stamp : Nat) : Record :=
  ⟨owner, prio, .steady, .granted, draw, none, 0, none, 0, none, none, 0, none, stamp, some stamp, false, none⟩

/-- The worked handset (2.8): the cable active at 9,000 mV and 2,000 mA, both cells NORMAL and in FAST, cell B LIVE. -/
def worked : State :=
  { State.reset with
    mon := ⟨⟨some ⟨3850, 1000, 22, false, .normal, 3931200000⟩, false, false⟩,
      ⟨some ⟨3900, -1770, 21, false, .normal, 3488400000⟩, false, false⟩⟩
    hinge := { Hinge.reset with dataState := .live, latest := some ⟨3900, -1770, 21, false⟩, lastSeq := some 41 }
    chg := ⟨⟨.fast, some ⟨1800000, 18000000⟩, 0, 0, 4400⟩, ⟨.fast, some ⟨1800000, 18000000⟩, 0, 0, 4400⟩⟩
    port := ⟨{ Port.reset with
      st := .ready, offers := [.fixed 5000 3000, .fixed 9000 2000], held := some ⟨9000, 2000, .negotiated 2⟩, ie := 2000
      vin := 9000 }, Port.reset⟩
    arb := ⟨.active .cable, none⟩
    budget := { Budget.reset with inputCmd := some 2000 } }

/-- The worked handset with the base load, the display and the radio granted (3.8), the pass timer at its end. -/
def loaded : State :=
  let s := putRecord 1 (steady 1 7 3500 1) (putRecord 2 (steady 2 6 1200 2) (putRecord 3 (steady 3 4 2500 3) worked))
  { s with
    resv := { s.resv with arrivals := 3, grants := 3 }
    budget := { s.budget with passTimer := 0, pub := { s.budget.pub with T := 43135, M := 1000, disLim := ⟨4000, 3000⟩, chgCeil := ⟨2600, 1900⟩ } } }

/-- The worked handset after the cable has gone. -/
def detached : State := { loaded with port := ⟨Port.reset, Port.reset⟩, arb := ⟨.none, none⟩ }

/-- A frame in progress: LSEL is low and the receiver takes bits. -/
def receiving : State := { State.reset with link := { Link.reset with lselHigh := false, rx := .receiving, frameTimer := some 10 } }

/-- An exchange whose reply window is at its end. -/
def replying : State := { worked with hinge := { worked.hinge with exch := .window 0 false } }

/-- A SAMPLE of 3,900 mV, −1,770 mA and 24 °C with its check (7.8). -/
def goodSample (seq : Byte) : SampleMsg :=
  let m : SampleMsg := ⟨0x55, seq, 0x0F, 0x3C, 0xF9, 0x16, 24, 0, 0⟩
  { m with check := crc8 [m.timing, m.seq, m.vHi, m.vLo, m.iHi, m.iLo, m.temp, m.flags] }

/-! ### Well-formedness and the table -/

theorem test_wf_refuses_33_arguments :
    hostCommands.all (fun c => !(c (List.replicate 33 0)).wf && (c (List.replicate 32 0)).wf) = true := by decide
theorem test_wf_refuses_reset_of_33 : (Instr.reset (List.replicate 33 0)).wf = false := by decide
theorem test_wf_refuses_slot_0 :
    [Instr.lifetimeExpiry 0, .burstExpiry 0, .burstTotalExpiry 0, .waitLimitExpiry 0].all (fun i => !i.wf) = true := by decide
theorem test_wf_refuses_good_framing :
    (Instr.badReplyFraming (.rate 36000)).wf = false ∧ (Instr.badReplyFraming (.lowStop 80000)).wf = false := by decide
theorem test_wf_accepts_bad_framing :
    (Instr.badReplyFraming (.rate 41000)).wf = true ∧ (Instr.badReplyFraming (.lowStop 79999)).wf = true := by decide
theorem test_wf_refuses_a_short_sample :
    (Instr.sample (List.replicate 71 true) .chargeFirst).wf = false ∧ (Instr.sample (List.replicate 72 true) .chargeFirst).wf = true := by
  decide
theorem test_no_table_word : decodeTableWord 8 0x10 = none ∧ State.reset.withFetchWord 8 0x10 = State.reset := ⟨rfl, rfl⟩

/-! ### Frames (12.1, 10.7) -/

/-- 12.1: the check of the NOP frame is D7h. -/
theorem test_crc_of_nop : crc8 [0x00, 0x00] = 0xD7#8 ∧ frameOf 0x00 [] = [0x00, 0x00, 0xD7] := by decide +kernel
/-- 10.7: a frame's LSEL edges around the NOP frame give DONE. -/
theorem test_nop_frame :
    answer (afterAll [.lselFall, .lselRise (bitsOfBytes [0x00, 0x00, 0xD7])] State.reset) = some (.done, []) := by
  decide +kernel
/-- 12.2: the first answer is status, outcome, length 0 and its check, and zeros follow it on LDO. -/
theorem test_ldo_zeros_follow :
    let t := after .lselFall State.reset
    (t.link.ldo.map fun a => (answerBytes a).length) = some 4 ∧ ldoBit t 10 = true ∧
      ([32, 33, 40, 1000].map fun k => ldoBit t k) = List.replicate 4 false := by decide +kernel
/-- 10.7, frame 4: a corrupted check is FRAME_BAD_CHECK with FRAME_ERROR and one count. -/
theorem test_bad_check_frame :
    let t := afterAll [.lselFall, .lselRise (bitsOfBytes [0x00, 0x00, 0xD6])] State.reset
    answer t = some (.frameBadCheck, []) ∧ isLatched .frameError t = true ∧ t.cond.cnt.frameCheck = 1 := by decide +kernel
/-- 10.7, frame 1: MARGIN 6,000 is stored as 5,000, DONE_CLAMPED, with a pass requested. -/
theorem test_set_margin :
    let t := after (.setLimit [0x21, 0, 0x00, 0x17, 0x70]) State.reset
    answer t = some (.doneClamped, []) ∧ t.lim.margin = 5000 ∧ t.budget.mark = true := by decide +kernel
/-- 10.7, frames 2, 3 and 6: under the lock CEIL_CABLE is LOCKED and MARGIN 800 is DONE. -/
theorem test_locked_items :
    let t := after (.lockLimits []) State.reset
    answer (after (.setLimit [0x17, 0, 0x00, 0x4E, 0x20]) t) = some (.locked, []) ∧
      answer (after (.setLimit [0x21, 0, 0x00, 0x03, 0x20]) t) = some (.done, []) := by decide +kernel
/-- 10.7, frame 7: RESET clears the lock and the latched conditions, in either order of re-evaluation. -/
theorem test_reset_command :
    let t := controlReset (after (.lockLimits []) State.reset)
    t.locked = false ∧ t.link.buffer.map (fun a => a.out) = some .firstFrame := by
  unfold controlReset resetBlocks reevaluateBoth
  split <;> decide +kernel

/-! ### Reservation table and pass (1.10, 2.8, 3.8) -/

/-- 1.10: the modem's RESERVE takes slot 4 with arrival stamp 4 and both timers set. -/
theorem test_reserve_modem :
    let t := after (.reserve [4, 5, 1, 0x17, 0x70, 0, 0, 0x05, 0xDC, 0x07, 0xD0]) loaded
    answer t = some (.done, [4, 0]) ∧
      (recordOf t 4).map (fun r => (r.st, r.draw, r.arrival, r.burstRem, r.waitRem)) =
        some (.pending, 6000, 4, some 1500, some 2000) := by decide +kernel
/-- 1.10: RELEASE by the wrong owner is NOT_OWNER, by the owner DONE; the slot's generation advances. -/
theorem test_release :
    answer (after (.release [3, 1, 0]) loaded) = some (.notOwner, []) ∧
      (slotOf (after (.release [1, 1, 0]) loaded) 1) = ⟨1, none⟩ := by decide +kernel
/-- 2.8, cable present. -/
theorem test_capability_cable :
    let c := capability worked
    (c.S, c.dA, c.dB, c.lossMax, c.dBn, c.T) = (16593, 15400, 11700, 558, 11142, 43135) := by decide +kernel
/-- 2.8, B degraded and A cold. -/
theorem test_capability_degraded :
    let s := { detached with
      hinge := { detached.hinge with dataState := .degraded }
      mon := { detached.mon with a := ⟨some ⟨3850, 0, -5, false, .cold, 3931200000⟩, false, false⟩ } }
    let c := capability s
    (c.S, c.dA, c.dB, c.lossMax, c.dBn, c.T) = (0, 3850, 1950, 15, 1935, 5785) := by decide +kernel
/-- 3.8, charging with three records granted. -/
theorem test_charge_split :
    let t := after .passTimerExpiry loaded
    (t.budget.pub.N, t.budget.pub.pA, t.budget.pub.pB, t.budget.pub.r, t.budget.cmd, t.budget.inputCmd) =
      (9393, 6246, 3147, 0, ⟨1622, 796⟩, some 2000) := by decide +kernel
/-- 3.8, a charge remainder: cell A WARM, cell B STALE. -/
theorem test_charge_remainder :
    let s := { loaded with
      hinge := { loaded.hinge with dataState := .stale, degTimer := some 500 }
      mon := { loaded.mon with a := ⟨some ⟨3850, 0, 50, false, .warm, 3931200000⟩, false, false⟩ } }
    let t := after .passTimerExpiry s
    (t.budget.pub.pA, t.budget.pub.pB, t.budget.pub.r, t.budget.cmd, t.budget.inputCmd) =
      (5005, 0, 4388, ⟨1300, 0⟩, some 1472) := by decide +kernel
/-- 3.8: the commands of the discharge of 13,200 mW. -/
theorem test_discharge_commands :
    splitAmount 13200 501 15400 11142 = ⟨6458, 6742, 0⟩ ∧ commandA (-6458) 3850 = -1677 ∧
      commandB (-6742) 3900 62 = -1776 := by decide +kernel
/-- 3.8: the splits of the degraded pass and of the cold cell. -/
theorem test_capped_splits :
    splitAmount 4700 501 3850 1935 = ⟨2765, 1935, 0⟩ ∧ splitAmount 13200 501 3850 11142 = ⟨3850, 9350, 0⟩ ∧
      commandB (-1935) 3900 62 = -500 ∧ commandB (-9350) 3900 62 = -2488 := by decide +kernel

/-! ### Cells (4.10, 5.14, 6.7) -/

/-- 4.10: the first sample of cell A at 3,710 mV gives 420 per mille. -/
theorem test_first_count :
    let t := after (.cellASample 3710 0 22 .chargeFirst) State.reset
    (readingOf t .A).map (fun r => (r.zone, r.count)) = some (.normal, 3931200000) ∧ soc t .A = some 420 ∧
      disLimit t .A = 4000 := by decide +kernel
/-- 4.10: the first count of cell B at 3,757 mV. -/
theorem test_first_count_b : firstCount Limits.default .B 3757 = 3488400000 := by decide +kernel
/-- 4.10: the temperature walk. -/
theorem test_zone_walk :
    ([20, 14, 16, 17, -1, 1, 30] : List Int).foldl (fun (zs : List Zone) t =>
        zoneAfter Limits.default t (zs.headD .normal) :: zs) [] =
      [.normal, .cold, .cold, .normal, .cool, .cool, .normal] := by decide +kernel
/-- 5.14: at 4,400 mV cell A moves from FAST to TAPER, and the third starved sample moves it to FULL. -/
theorem test_taper_and_full :
    let s := { loaded with budget := { loaded.budget with cmd := ⟨796, 0⟩ } }
    let t := after (.cellASample 4400 1622 22 .chargeFirst) s
    t.chg.a.phase = .taper ∧
      (afterAll [.cellASample 4400 98 22 .chargeFirst, .cellASample 4400 97 22 .chargeFirst,
        .cellASample 4400 96 22 .chargeFirst] t).chg.a.phase = .full := by decide +kernel
/-- 6.7: two samples above HARD_DIS_I_A open the branch, zero the command and latch BRANCH_FAULT_A. -/
theorem test_overcurrent_trip :
    let s := { detached with budget := { detached.budget with cmd := ⟨-1677, -1776⟩ } }
    let t := afterAll [.cellASample 3850 (-6100) 22 .branchFirst, .cellASample 3850 (-6100) 22 .branchFirst] s
    branchState t .A = .openFault ∧ t.budget.cmd = ⟨0, -1776⟩ ∧ isLatched (.branchFault .A) t = true := by decide +kernel
/-- R108: a reading saturated at −8,000 mA stands above an item of 8,000 mA, one of −7,999 mA does not. -/
theorem test_saturated_discharge :
    let s := { detached with lim := { detached.lim with hardDisI := ⟨8000, 8000⟩ } }
    (after (.cellASample 3850 (-9000) 22 .branchFirst) s).br.a.disRun = 1 ∧
      (after (.cellASample 3850 (-7999) 22 .branchFirst) s).br.a.disRun = 0 := by decide +kernel
/-- 6.7: the third sample of an overdraw turns it on. -/
theorem test_overdraw :
    let s := { loaded with load := ⟨false, 0, 2, 0, 0⟩ }
    let t := after (.systemLoadSample 8200) s
    t.load = ⟨true, 1000, 0, 0, 8200⟩ ∧ t.cond.cnt.overdraws = 1 := by decide +kernel

/-! ### Hinge sense line (4.10, 7.8) -/

/-- R170, R175: POLL is C3h between a start bit and a stop bit, the least significant bit first. -/
theorem test_poll_bits :
    (after (.hingeSlot false) loaded).hinge.exch =
      .polling [false, true, true, false, false, false, false, true, true, true] := by decide +kernel
/-- 7.8, slots 2 and 4: the first failure makes SUSPECT, the third STALE with FAR_STALE. -/
theorem test_failures :
    let t := after (.replyWindowExpiry false) replying
    t.hinge.dataState = .suspect ∧ t.cond.cnt.farNoReply = 1 ∧
      let u := after (.replyWindowExpiry true)
        { t with hinge := { t.hinge with exch := .window 0 false, failRun := 2 } }
      u.hinge.dataState = .stale ∧ u.hinge.degTimer = some 500 ∧ isLatched .farStale u = true := by decide +kernel
/-- 4.10: a GOOD slot counts its own current. -/
theorem test_good_slot :
    (readingOf (after (.sample (sampleLine (goodSample 42)) .chargeFirst) replying) .B).map (fun r => (r.count, r.i, r.t)) =
      some (3488382300, -1770, 24) := by decide +kernel
/-- R120: the last accepted sequence number is a bad reply. -/
theorem test_repeated_sequence :
    (after (.sample (sampleLine (goodSample 41)) .chargeFirst) replying).cond.cnt.farBadReply = 1 := by decide +kernel

/-! ### Ports and arbiter (8.5, 8.7, 9.5) -/

/-- 8.5: the best contract under 27,000 and 13,500 mW. -/
theorem test_selection :
    let offers : List Offer := [.fixed 5000 3000, .fixed 9000 3000, .range 4000 11000 3000]
    selection 27000 Limits.default offers = some ⟨9000, 3000, 2, 2⟩ ∧
      selection 13500 Limits.default offers = some ⟨4500, 3000, 3, 1⟩ := by decide +kernel
/-- 8.7: the droop table of the coil port. -/
theorem test_droop :
    ([8650, 8600, 8750, 8820, 8900, 8950] : List Nat).foldl
        (fun ie vin => droopIe 15000 300 ⟨9000, 1500, .negotiated 1⟩ vin ie) 1500 = 1500 ∧
      droopIe 15000 300 ⟨9000, 1500, .negotiated 1⟩ 8650 1500 = 1400 := by decide +kernel
/-- 9.5: at the break's end the eligible cable is closed with CHANGEOVER_DONE. -/
theorem test_changeover_end :
    let s := { worked with arb := ⟨.changeover, some 0⟩ }
    let t := after .breakTimerExpiry s
    t.arb = ⟨.active .cable, none⟩ ∧ t.budget.inputCmd = some 2000 ∧ isLatched .changeoverDone t = true := by decide +kernel
/-- R152: 110 °C is HOT, 109 °C is not. -/
theorem test_die_hot :
    (dieSample 110 State.reset).dieHot = true ∧ (dieSample 109 State.reset).dieHot = false := by
  refine ⟨?_, by decide +kernel⟩
  show (reevaluateBoth (latch .dieHot { State.reset with dieHot := true })).dieHot = true
  unfold reevaluateBoth
  split <;> decide +kernel

/-! ### Witnesses: a state and operands that meet the hypotheses of each obligation -/

/-- Whether a step answers a next state. -/
def steps (s : State) : Bool :=
  match step s with
  | .next _ => true
  | .fault _ => false
  | .refused _ => false

/-- The loaded handset with a row waiting. -/
def queued (i : Instr) : State := { loaded with pending := [i] }

/-- The loaded handset with a burst PENDING in slot 4, both its timers running. -/
def bursting (st : RecState) : State :=
  putRecord 4 ⟨14, 6, .burst, st, 6000, none, 3600, some 1, 2000, some 1, some 4999, 60000,
    if st = .granted then none else some 1, 4, if st = .granted then some 3 else none, false, none⟩
    { loaded with resv := { loaded.resv with arrivals := 4 }, budget := { loaded.budget with passTimer := 20 } }

/-- The same burst with each of its timers at its end. -/
def lapsing (st : RecState) : State :=
  putRecord 4 ⟨14, 6, .burst, st, 6000, none, 3600, some 0, 2000, some 0, some 5000, 60000,
    if st = .granted then none else some 0, 4, if st = .granted then some 3 else none, false, none⟩ (bursting st)

/-- The loaded handset with an ENDED record in slot 23, its mark set. -/
def ended : State :=
  putRecord 23 ⟨0, 0, .steady, .ended .lifetime, 1, none, 1, none, 0, none, none, 0, none, 3, none, true, none⟩
    { loaded with budget := { loaded.budget with passTimer := 20 } }

/-- The loaded handset with every host slot taken but slot 23. -/
def almostFull : State :=
  (List.finRange 24).foldl (fun s k => if k = 0 ∨ k = 23 then s else putRecord k (steady 1 7 1 1) s) loaded

/-- The loaded handset with its cable port as given. -/
def cableAs (q : Port) : State := { loaded with port := { loaded.port with cable := q } }

/-- The loaded handset's cable port in a state. -/
def cableIn (st : PortState) : State := cableAs { loaded.port.cable with st := st }

/-- The cable port of the worked handset with a proposal. -/
def proposing (st : PortState) : Port := { loaded.port.cable with st := st, prop := some ⟨5000, 3000, 1, 1⟩, timer := some 0 }

/-- The worked handset with the hinge link controller in a data state. -/
def farIn (d : DataState) : State := { replying with hinge := { replying.hinge with dataState := d } }

/-- The worked table with the display alone, a load the equalizer starts under. -/
def light : Table := { detached.resv with slots := (detached.resv.slots.set 1 ⟨0, none⟩).set 3 ⟨0, none⟩ }

theorem witness_StepRunsTheFrontCommand : (queued .passTimerExpiry).pending = [.passTimerExpiry] := rfl

/-- A state of each record at which no timer stands at its end, and one at which the pass timer does. -/
theorem witness_IdleStepCountsRecordTimers :
    (∀ st ∈ [RecState.granted, .pending, .waiting .noRoom], (bursting st).pending = [] ∧ ¬∃ e, TimerAtEnd (bursting st) e) ∧
    (ended.pending = [] ∧ ¬∃ e, TimerAtEnd ended e) ∧
    (Expiry .passTimerExpiry ∧ ¬TimerAtEnd ended .passTimerExpiry) ∧ ∃ e, TimerAtEnd loaded e := by
  have h : ∀ st ∈ [RecState.granted, .pending, .waiting .noRoom], dueEvent (bursting st) = none := by decide +kernel
  have g : dueEvent ended = none := by decide +kernel
  exact ⟨fun st m => ⟨rfl, fun ⟨e, w⟩ => not_atEnd_of_dueEvent (h st m) e w⟩,
    ⟨rfl, fun ⟨e, w⟩ => not_atEnd_of_dueEvent g e w⟩, ⟨.pass, not_atEnd_of_dueEvent g _⟩, _, .pass rfl⟩

theorem witness_StepKeepsRecordsWellFormed :
    let s := queued (.reserve [14, 7, 1, 0x4E, 0x20, 0x0E, 0x10, 0x07, 0xD0, 0xEA, 0x60])
    limitsOk s.lim ∧ tableOk s ∧ steps s := by decide +kernel

theorem witness_StepKeepsGrantsWithinCapability :
    let s := queued .passTimerExpiry
    limitsOk s.lim ∧ tableOk s ∧ grantsBounded s ∧ anyGranted s ∧ steps s := by decide +kernel

theorem witness_StepKeepsCommandsWithinLimits :
    let s := queued .passTimerExpiry
    commandsOk s ∧ heldCellNotCharged s ∧ steps s := by decide +kernel

theorem witness_StepKeepsCellRecordsInRange :
    let s := queued (.cellASample 5001 8001 126 .chargeFirst)
    countsOk s ∧ readingsOk s ∧ (readingOf s .A).isSome ∧ steps s := by decide +kernel

theorem witness_StepKeepsMarkOverdrawCountersAndReceiver :
    let s := queued (.systemLoadSample 100001)
    requestOk s ∧ overdrawOk s ∧ countersOk s ∧ receiverOk s ∧ steps s := by decide +kernel

theorem witness_StepKeepsLimitsInRange :
    limitsOk (queued (.setLimit [0x21, 0, 0, 0, 1])).lim ∧ steps (queued (.setLimit [0x21, 0, 0, 0, 1])) := by decide +kernel

theorem witness_StepKeepsDataStateLadder :
    let s := { replying with pending := [.replyWindowExpiry false] }
    ladderOk s ∧ steps s := by decide +kernel

theorem witness_StepKeepsChargeSessions :
    let s := { loaded with pending := [.terminationRun .A] }
    chargesOk s ∧ steps s := by decide +kernel

theorem witness_StepKeepsPortCurrentsAndActivePort :
    let s := { loaded with pending := [.inputSample .cable 20000] }
    portsOk s ∧ arbiterOk s ∧ steps s := by decide +kernel

theorem witness_OnlyResetClearsTheLock :
    exec (.lockLimits []) State.reset = .next (after (.lockLimits []) State.reset) ∧
      (after (.lockLimits []) State.reset).locked = true ∧
      checkFrame (wholeBytes (bitsOfBytes (frameOf 0x7F []))) = .wellFormed 0x7F [] ∧
      checkFrame (wholeBytes (bitsOfBytes (frameOf 0x40 [0x21, 0, 0, 0, 1]))) = .wellFormed 0x40 [0x21, 0, 0, 0, 1] :=
  ⟨rfl, by decide +kernel, by decide +kernel, by decide +kernel⟩

theorem witness_FrameReadsBackItsCommand :
    (List.replicate 32 (0 : Byte)).length ≤ 32 ∧
      checkFrame (wholeBytes (bitsOfBytes (frameOf 0x7F (List.replicate 32 0)) ++ [true])) =
        .wellFormed 0x7F (List.replicate 32 0) := by decide +kernel

theorem witness_LselRiseCarriesOutTheCommand :
    receiving.link.rstnLow = false ∧ receiving.link.lselHigh = false ∧ receiving.link.rx = .receiving ∧
      commandCodes.length = 22 ∧ ∀ c ∈ commandCodes, c.1 ≠ 0x01 ∧ c.1 ≠ 0x7E ∧ c.1 ≠ 0xFF := by decide

/-- The clauses meet at a length byte of 32 and 33, and at a frame of as many bytes as it needs and one fewer. -/
theorem witness_ErredFrameRunsNoCommand :
    (List.replicate 7 false).length < 8 ∧ receiving.link.rx = .receiving ∧ checkFrame [0x00] = .erred .frameShort ∧
      checkFrame (0 :: 33 :: List.replicate 33 0) = .erred .frameBadLength ∧
      checkFrame (0 :: 32 :: List.replicate 32 0) = .erred .frameShort ∧
      checkFrame (0 :: 32 :: List.replicate 33 0) = .erred .frameBadCheck := by decide +kernel

theorem witness_FrameBeginsAtAFallAndTimesOut :
    (State.reset.link.lselHigh = true ∧ State.reset.link.rstnLow = false ∧ State.reset.link.rx = .idle) ∧
      receiving.link.rx = .receiving ∧
      (let s := after .rstnLow { State.reset with link := { Link.reset with rstnLow := true } }
       s.link.lselHigh = true ∧ s.link.rstnLow = true) ∧
      (let s := after .frameTimerExpiry { receiving with link := { receiving.link with frameTimer := some 0 } }
       s.link.rx = .discarding ∧ s.link.lselHigh = false ∧ s.link.rstnLow = false) := by decide +kernel

/-- R172: one and 32 bytes are lengths listed for neither NOP nor RESERVE; 2 is the first byte that is no cell, port or on/off code,
and 80h the first of an entry of type 2. -/
theorem witness_RefusedCommandChangesNothing :
    takesFrame State.reset ∧ takesFrame receiving ∧ hostCommands.length = 21 ∧ commandLengths.length = 22 ∧
      [1, 32].all (fun n => !([0, 11] : List Nat).contains n) = true ∧ 1 < (2 : Byte).toNat ∧ 2 ≤ (0x80 : Byte).toNat / 64 ∧
      (List.replicate 25 (0 : Byte)).length % 5 = 0 ∧ (List.replicate 25 (0 : Byte)).length + [(0 : Byte)].length ≤ 26 := by decide

/-- 12.1: the registers of the worked check, F3h and D7h. The answer of reset is shifted out after a fall, and an RSTN low ends it. -/
theorem witness_StatusByteReportsTheBlock :
    let t := after .lselFall State.reset
    checkOf [0x00] = 0xF3 ∧ checkOf [0x00, 0x00] = 0xD7 ∧ State.reset.link.ldo = none ∧
      (t.link.rstnLow, t.link.ldo.map fun a => (a.out, a.payload)) = (false, some (.firstFrame, [])) ∧
      ({ Link.reset with rstnLow := true } : Link).rstnLow = true := by decide +kernel

/-- The ends of every field's range, a full and an almost full table. -/
theorem witness_ReserveCreatesAPendingRecord :
    takesFrame almostFull ∧ reserveInRange 14 7 1 20000 3600 2000 60000 ∧ reserveInRange 0 0 0 1 0 0 0 ∧
      reserveInRange 15 0 0 1 0 0 0 = false ∧ reserveInRange 0 0 1 1 0 2001 0 = false ∧
      recordOf State.reset 1 = none ∧ recordOf almostFull 23 = none ∧
      (∀ j : Fin 24, j ≠ 0 → j < 23 → (recordOf almostFull j).isSome) ∧
      (∀ j : Fin 24, j ≠ 0 → (recordOf (putRecord 23 (steady 1 7 1 1) almostFull) j).isSome) := by decide +kernel

theorem witness_HandleChecksGiveTheFirstFailure :
    takesFrame ended ∧ recordOf ended 22 = none ∧ (slotOf ended 1).gen ≠ 1 ∧
      (∀ r, recordOf ended 1 = some r → (2 : Byte).toNat ≠ r.owner ∧ (slotOf ended 1).gen = 0) ∧
      (recordOf ended 23).map Record.live = some false ∧ (recordOf ended 1).isSome := by decide +kernel

/-- The owner 1 and the arbiter's owner 0 name the record of slot 1; a PENDING one stands in slot 4. -/
theorem witness_AdjustAndRenewActByRecordState :
    takesFrame loaded ∧ handleNames loaded 1 1 0 1 (steady 1 7 3500 1) ∧ handleNames loaded 0 1 0 1 (steady 1 7 3500 1) ∧
      (steady 1 7 3500 1).live = true ∧ (recordOf (bursting .pending) 4).map Record.live = some true ∧
      word2 0 1 = 1 ∧ word2 0x4E 0x20 = 20000 := by
  unfold handleNames; decide +kernel

theorem witness_ReleaseFreesTheSlot :
    takesFrame loaded ∧ handleNames loaded 3 3 0 3 (steady 3 4 2500 3) := by
  unfold handleNames; decide +kernel

theorem witness_QueryReportsTheSlot :
    takesFrame ended ∧ 24 ≤ (24 : Byte).toNat ∧ recordOf ended 22 = none ∧ (recordOf ended 23).isSome ∧ slotOk ended 23 ∧
      ended.resv.arrivals ≤ 65535 ∧ ended.resv.grants ≤ 65535 := by decide +kernel

theorem witness_CollectReportsAndClearsMarks :
    takesFrame ended ∧ ((List.finRange 24).filter fun k => k ≠ 0 ∧ (recordOf ended k).any fun r => r.mark) = [23] := by
  decide +kernel

/-- Every timer at its end and with time remaining, a FREE slot, an ENDED record and one without a lifetime. -/
theorem witness_RecordExpiryEndsTheRecord :
    (recordOf (lapsing .granted) 4).map (fun r => (r.st, r.kind, r.lifeRem)) = some (.granted, .burst, some 0) ∧
      (recordOf (lapsing .granted) 4).map (fun r => (r.burstRem, r.burstTot)) = some (some 0, some 5000) ∧
      (recordOf (bursting .granted) 4).map (fun r => (r.lifeRem, r.burstRem, r.burstTot)) = some (some 1, some 1, some 4999) ∧
      (∀ st ∈ [RecState.pending, .waiting .revoked], (recordOf (lapsing st) 4).map (fun r => (r.st, r.waitRem)) = some (st, some 0)) ∧
      recordOf loaded 4 = none ∧ (recordOf ended 23).map Record.live = some false ∧
      (recordOf loaded 1).map (fun r => (r.st, r.lifeRem)) = some (.granted, none) := by decide +kernel

/-- R26, R10: a RENEW taken first prevents the expiry of the timer it restarts, the burst's while GRANTED, the lifetime's and the wait's
while PENDING, and no other. -/
theorem test_renew_prevents_an_expiry :
    let stateAfter := fun (st : RecState) (e : Instr) => (recordOf (after e (after (.renew [14, 4, 0]) (lapsing st))) 4).map fun r => r.st
    ([Instr.burstExpiry 4, .burstTotalExpiry 4, .lifetimeExpiry 4].map (stateAfter .granted)) =
        [some .granted, some (.ended .overstay), some (.ended .lifetime)] ∧
      ([Instr.lifetimeExpiry 4, .waitLimitExpiry 4].map (stateAfter .pending)) = [some .pending, some .pending] := by decide +kernel

/-- R26: a RENEW taken after the expiry is refused WRONG_STATE. -/
theorem test_renew_after_an_expiry :
    answer (after (.renew [14, 4, 0]) (after (.burstExpiry 4) (lapsing .granted))) = some (.wrongState, []) := by decide +kernel

/-- Silence release ends priority 6 and keeps priority 7. -/
theorem witness_SilenceReleaseEndsLowerPriorities :
    let s := { loaded with link := { loaded.link with silence := some 0 } }
    s.link.silence = some 0 ∧ loaded.link.silence ≠ some 0 ∧
      ([1, 2].map fun k => (recordOf (after .silenceTimerExpiry s) k).map fun r => r.st) =
        [some .granted, some (.ended .abandoned)] := by decide +kernel

/-- R159: a frame taken first restarts the silence timer and no release happens; taken after, the records stay ENDED. -/
theorem test_frame_prevents_silence_release :
    let s := { loaded with lim := { loaded.lim with silenceLimit := 5 }, link := { loaded.link with silence := some 0 } }
    let held := fun t : State => (recordOf t 2).map fun r => r.st
    held (after .silenceTimerExpiry (after (.nop []) s)) = some .granted ∧
      held (after (.nop []) (after .silenceTimerExpiry s)) = some (.ended .abandoned) := by decide +kernel

/-- R28: where the pass timer and the request delay run out together, one pass takes place, whichever row comes first. -/
theorem test_expiries_together_are_one_pass :
    let s := { loaded with budget := { loaded.budget with mark := true, delay := some 0 } }
    (afterAll [.passTimerExpiry, .requestDelayExpiry] s).budget.seq = 1 ∧
      (afterAll [.requestDelayExpiry, .passTimerExpiry] s).budget.seq = 1 := by decide +kernel

theorem witness_PassPublishesItsCapability :
    passDue loaded .passTimerExpiry ∧ ended.budget.passTimer ≠ 0 ∧ loaded.budget.delay ≠ some 0 ∧
      passDue { loaded with budget := { loaded.budget with mark := true, delay := some 0 } } .requestDelayExpiry :=
  ⟨.inl ⟨rfl, rfl⟩, by decide, by decide, .inr ⟨rfl, rfl⟩⟩

/-- The equalizer starts without an input where cell A stands above cell B by EQ_START, and is granted; it stops below EQ_STOP. -/
theorem witness_PassLeavesNoRecordPending :
    let start : State := { detached with
      mon := { detached.mon with a := { detached.mon.a with rd := detached.mon.a.rd.map fun r => { r with count := 9000000000 } } }
      resv := light }
    let t := after .passTimerExpiry start
    let even : State := { t with mon := detached.mon }
    start.budget.passTimer = 0 ∧ start.resv.grants ≤ 65535 ∧ recordOf start 0 = none ∧ startsTransfer start = some .aToB ∧
      (recordOf t 0).map (fun r => (r.st, r.draw, r.dir)) = some (.granted, 1500, some .aToB) ∧ 0 < t.budget.pub.granted ∧
      keepsTransfer even (some .aToB) = false ∧ recordOf (equalized even) 0 = none ∧
      isShed loaded 7199 0 3 = true ∧ isShed loaded 7199 0 2 = false ∧ isShed loaded 7200 0 3 = false := by decide +kernel

/-- 2.8, an overdraw: the radio in slot 3 with its increase and the record of slot 5 are shed, and slot 5 is granted again. -/
def overdrawn : State :=
  let s := putRecord 3 { steady 3 4 2500 3 with pendDraw := some 3000, grantStamp := some 6 }
    (putRecord 4 { steady 4 5 6000 4 with grantStamp := some 5 } (putRecord 5 { steady 5 4 200 5 with grantStamp := some 7 } detached))
  { s with
    resv := { s.resv with arrivals := 5, grants := 7 }
    load := { s.load with on := true, U := 1000 }
    mon := { s.mon with a := ⟨some ⟨3850, 0, -5, false, .cold, 3931200000⟩, false, false⟩ } }

/-- 2.8: the verdicts and the table at the end of the sequence. -/
theorem test_overdraw_sheds_and_grants_again :
    let t := after .passTimerExpiry overdrawn
    (t.budget.pub.T, t.budget.pub.L, t.budget.pub.shed, t.budget.pub.granted) = (14992, 10900, 2, 1) ∧
      ([1, 2, 3, 4, 5].map fun k => (recordOf t k).map fun r => (r.st, r.draw, r.grantStamp)) =
        [some (.granted, 3500, some 1), some (.granted, 1200, some 2), some (.waiting .revoked, 3000, some 6),
          some (.granted, 6000, some 5), some (.granted, 200, some 8)] ∧
      ([3, 5].map fun k => (recordOf t k).map fun r => (r.pendDraw, r.mark)) = [some (none, true), some (none, true)] := by
  decide +kernel

/-- 2.8: the tests of that walk, 14,700 and 11,900 against 13,492, in the terms of the statements. -/
theorem test_overdraw_walk_figures :
    let table := shedRecord overdrawn 13992 1000
    let granted := fun k : Fin 24 => k == 5
    ([3, 5].map fun k => (table k).map fun r => (r.st, claimOf r, sumAt table granted k r + 1000 + r.draw)) =
      [some (.waiting .revoked, some 3000, 14700), some (.waiting .revoked, some 200, 11900)] := by decide +kernel

/-- One PENDING record is granted and another of its priority waits. -/
theorem witness_PassGrantsNothingBelowAWaitingRecord :
    let p := fun n : Nat => { steady 4 5 20000 n with st := .pending, grantStamp := none }
    let s := putRecord 4 (p 4) (putRecord 5 (p 5) loaded)
    passDue s .passTimerExpiry ∧ exec .passTimerExpiry s = .next (after .passTimerExpiry s) ∧
      ([4, 5].map fun k => (recordOf s k).map fun r => r.st) = [some .pending, some .pending] ∧
      ([4, 5].map fun k => (recordOf (after .passTimerExpiry s) k).map fun r => r.st) =
        [some .granted, some (.waiting .noRoom)] := ⟨.inl ⟨rfl, rfl⟩, rfl, by decide +kernel⟩

/-- Without the cable and with cell B degraded the radio is shed and the display stays. -/
theorem witness_PassShedsInShedOrder :
    let s := { detached with
      hinge := { detached.hinge with dataState := .degraded }
      mon := { detached.mon with a := ⟨some ⟨3850, 0, -5, false, .cold, 3931200000⟩, false, false⟩ } }
    tableOk s ∧ s.resv.grants < 65535 ∧ passDue s .passTimerExpiry ∧ exec .passTimerExpiry s = .next (after .passTimerExpiry s) ∧
      ([2, 3].map fun k => (recordOf (after .passTimerExpiry s) k).map fun r => (r.st, r.grantStamp)) =
        [some (.granted, some 2), some (.waiting .revoked, some 3)] := by
  refine ⟨by decide +kernel, by decide, .inl ⟨rfl, rfl⟩, rfl, by decide +kernel⟩

/-- The three forms of the input current command, a net discharge, and a transfer either way. -/
theorem witness_PassPublishesTheSplit :
    detached.budget.passTimer = 0 ∧ (after .passTimerExpiry detached).budget.pub.S = 0 ∧
      0 < (after .passTimerExpiry loaded).budget.pub.S ∧ (after .passTimerExpiry loaded).budget.pub.r = 0 ∧
      (after .passTimerExpiry detached).budget.pub.N < 0 ∧
      0 < (after .passTimerExpiry { loaded with
        hinge := { loaded.hinge with dataState := .stale, degTimer := some 500 }
        mon := { loaded.mon with a := ⟨some ⟨3850, 0, 50, false, .warm, 3931200000⟩, false, false⟩ } }).budget.pub.r ∧
      (∀ c ∈ [(9000000000, Dir.aToB), (0, Dir.bToA)],
        let s : State := { detached with
          mon := { detached.mon with a := { detached.mon.a with rd := detached.mon.a.rd.map fun r => { r with count := c.1 } } }
          resv := light }
        (recordOf (after .passTimerExpiry s) 0).map (fun r => r.dir) = some (some c.2) ∧
          0 < equalizerDraw (after .passTimerExpiry s)) := by
  decide +kernel

theorem witness_SplitFillsTheCaps :
    (1024 : Nat) ≤ 1024 ∧ 10 * 512 / 1024 ≤ 5 ∧ 10 - 10 * 512 / 1024 ≤ 5 ∧ splitAmount 10 512 5 5 = ⟨5, 5, 0⟩ ∧
      splitAmount 11 512 5 5 = ⟨5, 5, 1⟩ := by decide

theorem witness_CommandsFollowNetPower : (0 : Nat) < 3900 ∧ (0 : Nat) < 1 ∧ commandB (-1) 3900 62 = 0 := by decide

theorem witness_FoldStateFollowsASettledLine :
    let s : State := { State.reset with budget := { Budget.reset with foldWait := some 0 } }
    State.reset.budget.foldWait = some 50 ∧ State.reset.budget.foldHigh ≠ false ∧
      (after .foldSettleExpiry s).budget.foldWait = none := by decide +kernel

/-- The first and last items, one below and one above its range. -/
theorem witness_SetLimitStoresAnItemWithinItsRange :
    takesFrame State.reset ∧ limitsOk State.reset.lim ∧ State.reset.locked = false ∧ itemRows.length = 45 ∧
      (itemRows.map ItemRow.id).Nodup ∧ signed3 0xFF 0xFF 0xFF = -1 ∧ signed3 0x7F 0xFF 0xFF = 8388607 := by decide +kernel

theorem witness_SetLimitStoresATableEntry :
    takesFrame State.reset ∧ limitsOk State.reset.lim ∧ State.reset.locked = false ∧
      (after (.setLimit [0x14, 3, 0, 0, 71]) State.reset).lim.zoneEdges[3] = 70 ∧
      (after (.setLimit [0x14, 0, 0xFF, 0xFF, 0xE1]) State.reset).lim.zoneEdges[0] = -30 ∧
      (after (.setLimit [0x1C, 10, 0, 0x11, 0xF9]) State.reset).lim.rest[10] = 4600 ∧
      ([[0x15, 0x42, 0, 1, 0], [0x15, 0x42, 0, 1, 1], [0x15, 0x21, 0, 1, 0x2D]].map fun a =>
        answer (after (.setLimit a) State.reset)) = [some (.done, []), some (.doneClamped, []), some (.doneClamped, [])] ∧
      (after (.setLimit [0x15, 0x21, 0, 1, 0x2D]) State.reset).lim.derate.normal.reduction = 300 := by decide +kernel

/-- An acceptance profile entry whose high end lies below its low end is stored with both at the low end, on a multiple of 20 mV. -/
theorem witness_SetLimitStoresATableEntry_profile :
    takesFrame State.reset ∧ clampProfile ⟨9001, 4000, 0⟩ = ⟨9000, 9000, 0⟩ ∧ clampProfile ⟨3999, 16001, 5009⟩ = ⟨4000, 16000, 5000⟩ ∧
      (setLimitCmd [0x16, 4, 0x23, 0x29, 0x0F, 0xA0, 0, 0] State.reset).out = .doneClamped ∧
      (setLimitCmd [0x16, 4, 0x38, 0x40, 0x3C, 0xF0, 0x07, 0x08] State.reset).out = .done := by decide +kernel

/-- Identifiers 00h and 32h, and the first index above each table, are refused. -/
theorem witness_LockedItemsRefuseAWrite :
    takesFrame State.reset ∧ (after (.lockLimits []) State.reset).locked = true ∧
      takesFrame (after (.lockLimits []) State.reset) ∧ lockableRows.all (fun e => e.lockable) = true ∧
      ([[0x00, 0], [0x32, 0], [0x21, 1], [0x14, 4], [0x15, 0x50], [0x15, 3], [0x1C, 11], [0x16, 0], [0x16, 5]].map fun a =>
        answer (after (.getLimit a) State.reset)) = List.replicate 9 (some (.badArg, [])) := by decide +kernel

theorem witness_GetLimitReportsTheEntry : takesFrame State.reset ∧ limitsOk State.reset.lim := by decide +kernel

theorem witness_PackedReadsReportTheBlock :
    takesFrame (cableAs { loaded.port.cable with offers := List.replicate 6 (.fixed 16000 5000) }) ∧
      (List.replicate 6 (Offer.fixed 16000 5000)).length ≤ 6 := by decide +kernel

theorem witness_ReadCellReportsTheCell :
    takesFrame loaded ∧ countsOk loaded ∧ readingsOk loaded ∧ limitsOk loaded.lim ∧ commandsOk loaded ∧
      (∀ x ∈ [Cell.A, .B], loaded.budget.pub.disLim.get x ≤ 6000 ∧ loaded.budget.pub.chgCeil.get x ≤ 6000) ∧
      readingOf State.reset .B = none ∧ (readingOf loaded .A).isSome := by decide +kernel

theorem witness_ConditionCommandsReportAndClear : takesFrame State.reset ∧ countersOk State.reset := by decide +kernel

/-- Six offers, none, some and all of them valid; a port state of each clause. -/
theorem witness_OffersDecideByPortState :
    (∀ st ∈ [PortState.detached, .isolated, .detecting, .ready, .rejected .noCommon], takesFrame (cableIn st)) ∧
      (List.replicate 6 (Offer.fixed 16010 5000)).all carriedOffer ∧
      (List.replicate 6 (Offer.fixed 16010 5000)).filter validOffer = [] ∧
      [Offer.fixed 16000 5000, .fixed 16010 5000].filter validOffer = [.fixed 16000 5000] ∧
      selection 27000 Limits.default [.fixed 4380 100] = none ∧
      selection 27000 Limits.default [.fixed 9000 2000] = some ⟨9000, 2000, 1, 2⟩ ∧
      loaded.port.cable.held = some ⟨9000, 2000, .negotiated 2⟩ := by decide +kernel

theorem witness_AppliedAndIsolateActByPortState :
    (∀ st ∈ [PortState.proposed, .confirming, .detached, .isolated, .rejected .overvoltage], takesFrame (cableIn st)) ∧
      (cableIn .isolated).port.cable.offers ≠ [] ∧ Port.reset.offers = [] ∧
      selection 27000 Limits.default loaded.port.cable.offers = some ⟨9000, 2000, 2, 2⟩ := by decide +kernel

/-- The verify test at 5 % of 9,000 mV, the overvoltage test at 110 %, the ends of the attach and detach tests. -/
theorem witness_InputSamplesStepTheRuns :
    ((after (.inputSample .coil 4000) loaded).port.coil.attachRun = 1 ∧
      (after (.inputSample .coil 3999) loaded).port.coil.attachRun = 0) ∧
      ((after (.inputSample .cable 3499) loaded).port.cable.detachRun = 1 ∧
        (after (.inputSample .cable 3500) loaded).port.cable.detachRun = 0) ∧
      ((after (.inputSample .cable 9901) loaded).port.cable.ovRun = 1 ∧
        (after (.inputSample .cable 9900) loaded).port.cable.ovRun = 0) := by decide +kernel

theorem witness_PortTimersDecideThePort :
    (after (.offerWindowExpiry .cable) (cableAs { Port.reset with st := .detecting, vin := 4400, timer := some 0 })).port.cable.st = .ready ∧
      (after (.offerWindowExpiry .cable) (cableAs { Port.reset with st := .detecting, vin := 5601, timer := some 0 })).port.cable.st =
        .rejected .outOfWindow ∧
      (after (.confirmTimerExpiry .cable) (cableAs (proposing .proposed))).port.cable.st = .ready ∧
      (after (.verifyWindowExpiry .cable) (cableAs (proposing .confirming))).port.cable.st = .ready := by decide +kernel

/-- The coil becomes eligible with the cable active, and the active cable is lost. -/
theorem witness_PortChangeReachesTheArbiter :
    loaded.port.coil.eligible = false ∧ loaded.port.cable.eligible = true ∧ loaded.arb = ⟨.active .cable, none⟩ ∧
      (stepPort .coil ⟨{ Port.reset with st := .ready, held := some ⟨5000, 500, .defaulted⟩ }, []⟩ loaded).arb =
        ⟨.active .cable, none⟩ ∧
      (stepPort .cable ⟨Port.reset, []⟩ loaded).arb = ⟨.none, some 20⟩ := by decide +kernel

theorem witness_BreakEndsAndDieZoneMoves :
    (let s := { loaded with arb := ⟨.changeover, some 1⟩ }
     s.arb.brk ≠ none ∧ s.port.cable.held = some ⟨9000, 2000, .negotiated 2⟩ ∧ s.lim.cablePreferred = 1) ∧
      loaded.arb.brk = none ∧ loaded.dieHot = false ∧ (110 : Int) ≤ 110 ∧
      (after (.dieSample 101) { loaded with dieHot := true }).dieHot = true := by decide +kernel

/-- Under a hot die the held 18 W stand above the halved ceiling of 13,500 mW, which both offers meet: the lower voltage wins. -/
theorem witness_ReevaluationRequalifiesAndReselects :
    let s := { loaded with dieHot := true }
    s.port.cable.st = .ready ∧ s.port.cable.offers ≠ [] ∧ portCeiling s .cable = 13500 ∧
      selection (portCeiling s .cable) s.lim s.port.cable.offers = some ⟨5000, 2700, 1, 1⟩ ∧
      (reevaluatePort .cable s).port.cable.ie = 1500 := by decide +kernel

theorem witness_ControlResetTakesEveryResetStep :
    commandsOk loaded ∧ loaded.link.rstnLow = false ∧ takesFrame loaded ∧
      exec .rstnLow { loaded with link := { loaded.link with rstnLow := true } } =
        .next { loaded with link := { loaded.link with rstnLow := true } } := ⟨by decide +kernel, by decide, by decide, rfl⟩

/-- The first count at, below and above the ends of the rest-voltage table. -/
theorem witness_CellASampleIsStoredAndHandedOn :
    limitsOk loaded.lim ∧ (readingOf loaded .A).isSome ∧ readingOf State.reset .A = none ∧
      ([2999, 3000, 4379, 4380].map fun v => firstCount Limits.default .A v) =
        [0, 0, 9350640000, 9360000000] := by decide +kernel

/-- A reading just at, and just below, each border of charge control. -/
theorem witness_ChargeSlotFollowsThePhase :
    (readingOf loaded .A).isSome ∧ targetVolt loaded .A = 4400 ∧
      ((after (.cellASample 4400 100 22 .chargeFirst) loaded).chg.a.phase = .taper ∧
        (after (.cellASample 4399 100 22 .chargeFirst) loaded).chg.a.phase = .fast) ∧
      ((after (.cellASample 4501 100 22 .chargeFirst) loaded).chg.a.ovRun = 1 ∧
        (after (.cellASample 4500 100 22 .chargeFirst) loaded).chg.a.ovRun = 0) := by decide +kernel

theorem witness_BranchTestsMoveItemsAndRuns :
    (readingOf loaded .A).isSome ∧ (branchState loaded .A).forbids (loaded.budget.cmd.get .A) = false ∧
      ((after (.cellASample 3850 (-6001) 22 .branchFirst) loaded).br.a.disRun = 1 ∧
        (after (.cellASample 3850 (-6000) 22 .branchFirst) loaded).br.a.disRun = 0) ∧
      ((after (.cellASample 2999 0 22 .branchFirst) loaded).br.a.cutRun = 1 ∧
        (after (.cellASample 3000 0 22 .branchFirst) loaded).br.a.cutRun = 0) := by decide +kernel

theorem witness_IsolateCellAndClearFaultMoveTheBranch :
    takesFrame loaded ∧ loaded.br.a.overcurrent = false ∧ loaded.br.a.chgOvercurrent = false ∧
      branchState (after (.isolateCell [0, 1]) loaded) .A = .openIsolated ∧
      ((after (.clearFault [0]) { loaded with chg := { loaded.chg with a := { loaded.chg.a with
        phase := .fault .overvoltage, session := none } } }).chg.a.phase = .off) := by decide +kernel

theorem witness_SystemLoadTurnsOverdrawOnAndOff :
    loaded.load.on = false ∧ grantedSum loaded = 7200 ∧
      ((after (.systemLoadSample 7701) loaded).load.onRun = 1 ∧ (after (.systemLoadSample 7700) loaded).load.onRun = 0) ∧
      (let s := { loaded with load := ⟨true, 1, 0, 2, 7201⟩ }
       (after (.systemLoadSample 7200) s).load.on = false ∧ (after (.systemLoadSample 7201) s).load.on = true) := by decide +kernel

/-- The range test at its ends, and the third failure. -/
theorem witness_FailedExchangeMovesTheLadder :
    replying.hinge.exch = .window 0 false ∧ (farIn .suspect).hinge.dataState = .suspect ∧ loaded.hinge.exch = .ended ∧
      word2 0x12 0x5C = 4700 ∧ word2 0x12 0x5D = 4701 ∧ (0xD8 : Byte).toInt = -40 ∧ (0x64 : Byte).toInt = 100 ∧
      220000 * 32142 ≤ 9000000000 ∧ 9000000000 < 280000 * 32143 ∧
      (after (.replyWindowExpiry false) { farIn .suspect with hinge := { (farIn .suspect).hinge with failRun := 2 } }).hinge.dataState =
        .stale := by decide +kernel

/-- Both ends of the voltage range with the ends of the temperature range. -/
theorem witness_GoodSampleIsAcceptedAndStored :
    let msg := fun (vHi vLo temp : Byte) => ({ goodSample 42 with vHi := vHi, vLo := vLo, temp := temp } : SampleMsg)
    limitsOk replying.lim ∧ replying.hinge.lastSeq ≠ some 42 ∧
      [msg 0x07 0xD0 0xD8, msg 0x12 0x5C 0x64].all (fun m =>
        let m' := { m with check := crc8 [m.timing, m.seq, m.vHi, m.vLo, m.iHi, m.iLo, m.temp, m.flags] }
        (after (.sample (sampleLine m') .chargeFirst) replying).hinge.lastSeq == some 42) = true := by decide +kernel

theorem witness_HingeLineAndRunsAct :
    loaded.hinge.exch = .ended ∧ replying.hinge.exch ≠ .ended ∧ (farIn .suspect).hinge.dataState = .suspect ∧
      (farIn .degraded).hinge.dataState = .degraded ∧ (farIn .degraded).hinge.latest.isSome ∧
      (after (.goodRun .chargeFirst) (farIn .degraded)).hinge.dataState = .live := by decide +kernel

end Sys2Proof.Tests
end

section
/-! Reservation table: what the handle commands leave once their checks pass (R5, R8 to R11), what the end of one record and
silence release leave (R23, R24), and the statements they settle. -/

namespace Sys2Proof.Machine

/-! ### Handle commands: arguments and checks (R5, R172) -/

theorem handleArgs_of_owner_le {o : Byte} (sl g : Byte) (ho : o.toNat ≤ 14) :
    handleArgs [o, sl, g] = some ⟨o.toNat, sl.toNat, g⟩ := by
  simp [handleArgs, ho]

theorem adjustArgs_of_inRange {o d1 d0 : Byte} (sl g : Byte) (ho : o.toNat ≤ 14) (hlo : 1 ≤ word2 d1 d0)
    (hhi : word2 d1 d0 ≤ 20000) :
    adjustArgs [o, sl, g, d1, d0] = some (⟨o.toNat, sl.toNat, g⟩, word2 d1 d0) := by
  simp [adjustArgs, unsignedOf_two, ho, hlo, hhi]

/-- A handle that names a record passes checks 2 to 4 of R5. -/
theorem checkHandle_of_handleNames {s : State} {o sl g : Byte} {k : Fin 24} {r : Record} (h : handleNames s o sl g k r) :
    checkHandle ⟨o.toNat, sl.toNat, g⟩ s = .ok (k, r) := by
  obtain ⟨-, hslot, hk0, hrec, hgen, howner⟩ := h
  have hk : k.val ≠ 0 := fun e => hk0 (Fin.ext e)
  have hown : ¬(o.toNat ≠ r.owner ∧ o.toNat ≠ 0) := by
    rintro ⟨hne, h0⟩
    rcases howner with h | rfl
    · exact hne h
    · exact h0 rfl
  simp [checkHandle, hslot, hk, hrec, hgen, hown]

theorem owner_le_of_handleNames {s : State} {o sl g : Byte} {k : Fin 24} {r : Record} (h : handleNames s o sl g k r) :
    o.toNat ≤ 14 := h.1

/-- The edges of a frame touch the link alone, so a handle names the same record after them. -/
theorem handleNames_afterEdges {s : State} {o sl g : Byte} {k : Fin 24} {r : Record} (h : handleNames s o sl g k r) :
    handleNames (afterEdges s) o sl g k r := h

/-! ### Handle commands: what they leave (R8 to R11) -/

section
variable {s : State} {o sl g : Byte} {k : Fin 24} {r : Record}

theorem adjustCmd_of_handleNames {d1 d0 : Byte} (h : handleNames s o sl g k r) (hl : r.live) (hlo : 1 ≤ word2 d1 d0)
    (hhi : word2 d1 d0 ≤ 20000) :
    adjustCmd [o, sl, g, d1, d0] s = doneWith (withRequest (putRecord k (r.adjust (word2 d1 d0)) s)) := by
  have hargs := adjustArgs_of_inRange sl g (owner_le_of_handleNames h) hlo hhi
  simp [adjustCmd, hargs, checkHandle_of_handleNames h, hl, requestPass_eq]

theorem renewCmd_of_handleNames (h : handleNames s o sl g k r) (hl : r.live) :
    renewCmd [o, sl, g] s = doneWith (putRecord k r.renew s) := by
  have hargs := handleArgs_of_owner_le sl g (owner_le_of_handleNames h)
  simp [renewCmd, hargs, checkHandle_of_handleNames h, hl]

theorem releaseCmd_of_handleNames (h : handleNames s o sl g k r) :
    releaseCmd [o, sl, g] s = doneWith (if r.live then withRequest (freeSlot k s) else freeSlot k s) := by
  have hargs := handleArgs_of_owner_le sl g (owner_le_of_handleNames h)
  simp [releaseCmd, hargs, checkHandle_of_handleNames h, requestPassIf, requestPass_eq]

end

/-- The row of a command that is carried out with an empty payload, where the port takes its frame. -/
theorem commandFrame_done {cmd : List Byte → State → Result} {args : List Byte} {s t : State} (hf : takesFrame s)
    (hn : args.length ≤ 32) (hc : cmd args (afterEdges s) = doneWith t) :
    commandFrame (runCommand cmd) args s = answered t .done [] := by
  rw [commandFrame_runCommand cmd args s hf hn, hc]
  rfl

theorem exec_adjust (args : List Byte) (s : State) :
    exec (.adjust args) s = .next (commandFrame (runCommand adjustCmd) args s) := rfl

theorem exec_renew (args : List Byte) (s : State) :
    exec (.renew args) s = .next (commandFrame (runCommand renewCmd) args s) := rfl

theorem exec_release (args : List Byte) (s : State) :
    exec (.release args) s = .next (commandFrame (runCommand releaseCmd) args s) := rfl

/-- The record an ADJUST leaves, PENDING and WAITING first (R8, R9). -/
theorem Record.adjust_eq (d : Nat) (r : Record) :
    r.adjust d =
      if r.st ≠ .granted then { r with draw := d }
      else if d < r.draw then { r with draw := d, pendDraw := none }
      else if d = r.draw then { r with pendDraw := none }
      else { r with pendDraw := some d } := by
  by_cases hg : r.st = .granted <;> simp [Record.adjust, hg]

/-- The record a RENEW leaves, by state and kind (R10). -/
theorem Record.renew_eq {r : Record} (hl : r.live) :
    r.renew =
      if r.st = .granted then
        if r.kind = .burst then { r with burstRem := some r.burstSet }
        else { r with lifeRem := if r.lifeSet = 0 then none else some (r.lifeSet * 1000) }
      else
        { r with
          lifeRem := if r.lifeSet = 0 then none else some (r.lifeSet * 1000)
          waitRem := if r.waitSet = 0 then none else some r.waitSet } := by
  cases hst : r.st with
  | granted => cases hk : r.kind <;> simp [Record.renew, hst, hk, restarted]
  | pending => simp [Record.renew, hst, restarted]
  | waiting c => simp [Record.renew, hst, restarted]
  | ended c => simp [Record.live, hst] at hl

/-- Settles O22: the handle passes its checks after the frame's edges, and the record the command leaves is the table's row. -/
theorem adjustAndRenewActByRecordState : Obligations.AdjustAndRenewActByRecordState := by
  intro s k r o sl g hf hh hl
  have hh' := handleNames_afterEdges hh
  refine ⟨fun d1 d0 hlo hhi => ?_, ?_⟩
  · rw [← Record.adjust_eq, exec_adjust, commandFrame_done hf (by simp) (adjustCmd_of_handleNames hh' hl hlo hhi)]
  · rw [← Record.renew_eq hl, exec_renew, commandFrame_done hf (by simp) (renewCmd_of_handleNames hh' hl)]

/-- The draw a slot counts in the granted sum, by its record (R4). -/
theorem grantedDraw_of_recordOf {s : State} {k : Fin 24} {r : Record} (h : recordOf s k = some r) :
    grantedDraw (slotOf s k) = if r.st = .granted then r.draw else 0 := by
  unfold recordOf at h
  simp [grantedDraw, h]

/-- Settles O23: a handle that passes its checks frees the slot, and the freed slot's draw leaves the granted sum. -/
theorem releaseFreesTheSlot : Obligations.ReleaseFreesTheSlot := by
  intro s k r o sl g hf hh
  have hh' := handleNames_afterEdges hh
  obtain ⟨-, -, -, hrec, -, -⟩ := hh
  constructor
  · rw [exec_release, commandFrame_done hf (by simp) (releaseCmd_of_handleNames hh')]
    rfl
  · rw [← grantedDraw_of_recordOf hrec]
    exact grantedSum_freeSlot k (afterEdges s)

/-! ### Silence release (R23, R24, R159) -/

/-- Reading a slot after one is replaced. -/
theorem slotOf_setSlot (k j : Fin 24) (sl : Slot) (b : Budget) (s : State) :
    slotOf { s with resv := { s.resv with slots := s.resv.slots.set k sl }, budget := b } j =
      if j = k then sl else slotOf s j := by
  by_cases h : j = k
  · simp [slotOf, h]
  · have h' : k.val ≠ j.val := fun e => h (Fin.ext e.symm)
    simp [slotOf, h, h']

/-- A slot after silence release: its record, if live and of priority 0 to 6, is ended ABANDONED (R24). -/
def Slot.abandoned (k : Fin 24) (sl : Slot) : Slot :=
  { sl with record := sl.record.map fun r => if r.prio ≤ 6 ∧ r.live then r.finish k .abandoned else r }

/-- Whether silence release would end a GRANTED record in a slot (R23, R24). -/
def losesGrant (s : State) (k : Fin 24) : Bool := (recordOf s k).any fun r => r.prio ≤ 6 && r.st == .granted

theorem losesGrant_iff (s : State) (k : Fin 24) :
    losesGrant s k = true ↔ ∃ r, recordOf s k = some r ∧ r.prio ≤ 6 ∧ r.st = .granted := by
  simp [losesGrant, Option.any_eq_true]

theorem Record.live_of_granted {r : Record} (h : r.st = .granted) : r.live = true := by
  simp [Record.live, h]

theorem Slot.abandoned_of_some {k : Fin 24} {sl : Slot} {r : Record} (hr : sl.record = some r) (hend : r.prio ≤ 6 ∧ r.live) :
    sl.abandoned k = { sl with record := some (r.finish k .abandoned) } := by
  simp [Slot.abandoned, hr, hend]

theorem Slot.abandoned_eq_self {k : Fin 24} {sl : Slot} (h : ∀ r, sl.record = some r → ¬(r.prio ≤ 6 ∧ r.live)) :
    sl.abandoned k = sl := by
  obtain ⟨gen, record⟩ := sl
  cases record with
  | none => rfl
  | some r => simp [Slot.abandoned, h r rfl]

/-- Silence release ends a live record of priority 0 to 6 (R24). -/
theorem abandon_of_live {k : Fin 24} {s : State} {r : Record} (hr : recordOf s k = some r) (hend : r.prio ≤ 6 ∧ r.live) :
    abandon k s = requestPassIf (r.st = .granted) (putRecord k (r.finish k .abandoned) s) := by
  simp [abandon, endRecord, hr, hend]

/-- Silence release passes over a FREE slot, an ENDED record and one of priority 7 (R24). -/
theorem abandon_eq_self {k : Fin 24} {s : State} (h : ∀ r, recordOf s k = some r → ¬(r.prio ≤ 6 ∧ r.live)) :
    abandon k s = s := by
  cases hr : recordOf s k with
  | none => simp [abandon, hr]
  | some r =>
    by_cases hp : r.prio ≤ 6
    · have hl : r.live = false := by simpa [hp] using h r hr
      simp [abandon, endRecord, hr, hl]
    · simp [abandon, hr, hp]

/-- Silence release of one slot replaces that slot, and requests a pass where the record was GRANTED (R23, R24). -/
theorem abandon_eq (k : Fin 24) (s : State) :
    abandon k s =
      { s with
        resv := { s.resv with slots := s.resv.slots.set k ((slotOf s k).abandoned k) }
        budget := if losesGrant s k then (withRequest s).budget else s.budget } := by
  by_cases hends : ∃ r, recordOf s k = some r ∧ r.prio ≤ 6 ∧ r.live
  · obtain ⟨r, hr, hend⟩ := hends
    have hg : losesGrant s k = decide (r.st = .granted) := by
      simp [losesGrant, hr, hend.1, Bool.beq_eq_decide_eq]
    rw [abandon_of_live hr hend, requestPassIf_eq, Slot.abandoned_of_some hr hend, hg]
    rfl
  · have hstays : ∀ r, recordOf s k = some r → ¬(r.prio ≤ 6 ∧ r.live) := fun r hr hend => hends ⟨r, hr, hend⟩
    have hself : s.resv.slots.set k (slotOf s k) = s.resv.slots := by simp [slotOf]
    have hg : ¬losesGrant s k = true := by
      rw [losesGrant_iff]
      rintro ⟨r, hr, hp, hst⟩
      exact hstays r hr ⟨hp, Record.live_of_granted hst⟩
    rw [abandon_eq_self hstays, Slot.abandoned_eq_self hstays, hself, if_neg hg]

theorem slotOf_abandon (k j : Fin 24) (s : State) :
    slotOf (abandon k s) j = if j = k then (slotOf s k).abandoned k else slotOf s j := by
  rw [abandon_eq, slotOf_setSlot]

theorem budget_abandon (k : Fin 24) (s : State) :
    (abandon k s).budget = if losesGrant s k then (withRequest s).budget else s.budget := by
  rw [abandon_eq]

theorem losesGrant_abandon_of_ne {k j : Fin 24} (s : State) (h : j ≠ k) : losesGrant (abandon k s) j = losesGrant s j := by
  simp [losesGrant, recordOf, slotOf_abandon, h]

/-- Silence release over a list of slots touches each of them once. -/
theorem slotOf_foldl_abandon (l : List (Fin 24)) (hl : l.Nodup) (s : State) (j : Fin 24) :
    slotOf (l.foldl (fun t k => abandon k t) s) j = if j ∈ l then (slotOf s j).abandoned j else slotOf s j := by
  induction l generalizing s with
  | nil => simp
  | cons k l ih =>
    obtain ⟨hk, hl⟩ := List.nodup_cons.mp hl
    rw [List.foldl_cons, ih hl, slotOf_abandon]
    by_cases hj : j = k
    · subst hj
      simp [hk]
    · simp [hj]

/-- Silence release over a list of slots requests a pass where it ends a GRANTED record. -/
theorem budget_foldl_abandon (l : List (Fin 24)) (hl : l.Nodup) (s : State) :
    (l.foldl (fun t k => abandon k t) s).budget =
      if l.any (losesGrant s) then (withRequest s).budget else s.budget := by
  induction l generalizing s with
  | nil => simp
  | cons k l ih =>
    obtain ⟨hk, hl⟩ := List.nodup_cons.mp hl
    have hrest : l.any (losesGrant (abandon k s)) = l.any (losesGrant s) := by
      rw [Bool.eq_iff_iff, List.any_eq_true, List.any_eq_true]
      refine exists_congr fun j => and_congr_right fun hj => ?_
      rw [losesGrant_abandon_of_ne s (ne_of_mem_of_not_mem hj hk)]
    rw [List.foldl_cons, ih hl, hrest, withRequest_budget, budget_abandon, List.any_cons]
    cases hg : losesGrant s k with
    | false => simp
    | true => simp

/-- Silence release of slots touches the table's slots and the budget unit alone. -/
theorem foldl_abandon_frame (l : List (Fin 24)) (s : State) :
    ∃ slots b, l.foldl (fun t k => abandon k t) s = { s with resv := { s.resv with slots := slots }, budget := b } := by
  induction l generalizing s with
  | nil => exact ⟨s.resv.slots, s.budget, rfl⟩
  | cons k l ih =>
    obtain ⟨slots, b, h⟩ := ih (abandon k s)
    refine ⟨slots, b, ?_⟩
    rw [List.foldl_cons, h, abandon_eq]

theorem hostSlots_nodup : hostSlots.Nodup := by decide

theorem mem_hostSlots (k : Fin 24) : k ∈ hostSlots ↔ k ≠ 0 := by
  revert k
  decide

/-- The record an end leaves in a host slot carries its mark (R23, R25). -/
theorem Record.finish_of_ne_zero {k : Fin 24} (hk : k ≠ 0) (c : EndCause) (r : Record) :
    r.finish k c =
      { r with st := .ended c, pendDraw := none, lifeRem := none, burstRem := none, waitRem := none, mark := true } := by
  simp [Record.finish, Record.marked, hk]

@[simp] theorem slotOf_latch (c : Condition) (s : State) (k : Fin 24) : slotOf (latch c s) k = slotOf s k := rfl

/-- A slot after silence release: its generation stays, and its record is ended where it is a host's, live and of priority 0 to 6
(R24). -/
theorem slotOf_silenceRelease (s : State) (k : Fin 24) :
    slotOf (silenceRelease s) k = if k ≠ 0 then (slotOf s k).abandoned k else slotOf s k := by
  rw [silenceRelease, slotOf_latch, slotOf_foldl_abandon hostSlots hostSlots_nodup]
  simp only [mem_hostSlots]

theorem gen_silenceRelease (s : State) (k : Fin 24) : (slotOf (silenceRelease s) k).gen = (slotOf s k).gen := by
  rw [slotOf_silenceRelease]
  split <;> rfl

theorem recordOf_silenceRelease (s : State) (k : Fin 24) :
    recordOf (silenceRelease s) k = (recordOf s k).map fun r =>
      if k ≠ 0 ∧ r.prio ≤ 6 ∧ r.live then
        { r with
          st := .ended .abandoned, pendDraw := none, lifeRem := none, burstRem := none, waitRem := none, mark := true }
      else r := by
  unfold recordOf
  rw [slotOf_silenceRelease]
  by_cases hk : k = 0
  · simp [hk]
  · simp [Slot.abandoned, hk, Record.finish_of_ne_zero]

theorem any_losesGrant_hostSlots (s : State) :
    hostSlots.any (losesGrant s) = true ↔ ∃ k r, k ≠ 0 ∧ recordOf s k = some r ∧ r.prio ≤ 6 ∧ r.st = .granted := by
  simp [List.any_eq_true, mem_hostSlots, losesGrant_iff]

theorem budget_silenceRelease (s : State) :
    (silenceRelease s).budget = if hostSlots.any (losesGrant s) then (withRequest s).budget else s.budget := by
  rw [silenceRelease, latch_budget, budget_foldl_abandon hostSlots hostSlots_nodup]

theorem budget_silenceRelease_of_grant (s : State)
    (h : ∃ k r, k ≠ 0 ∧ recordOf s k = some r ∧ r.prio ≤ 6 ∧ r.st = .granted) :
    (silenceRelease s).budget = (withRequest s).budget := by
  rw [budget_silenceRelease, if_pos ((any_losesGrant_hostSlots s).mpr h)]

theorem budget_silenceRelease_of_no_grant (s : State)
    (h : ¬∃ k r, k ≠ 0 ∧ recordOf s k = some r ∧ r.prio ≤ 6 ∧ r.st = .granted) :
    (silenceRelease s).budget = s.budget := by
  rw [budget_silenceRelease, if_neg (mt (any_losesGrant_hostSlots s).mp h)]

/-- Silence release touches the table's slots and the budget unit, and latches SILENCE_RELEASE, bit 3 (R24, 11.1). -/
theorem silenceRelease_frame (s : State) :
    silenceRelease s =
      { s with
        resv := { s.resv with slots := (silenceRelease s).resv.slots }
        budget := (silenceRelease s).budget
        cond := { s.cond with latched := s.cond.latched ||| 0x8#26 } } := by
  obtain ⟨slots, b, h⟩ := foldl_abandon_frame hostSlots s
  unfold silenceRelease
  rw [h]
  rfl

theorem exec_silenceTimerExpiry (s : State) : exec .silenceTimerExpiry s = .next (silenceExpiry s) := rfl

/-- The silence timer stopped (R159). -/
def stopSilence (s : State) : State := { s with link := { s.link with silence := none } }

theorem silenceExpiry_of_not_end {s : State} (h : s.link.silence ≠ some 0) : silenceExpiry s = s := if_neg h

theorem silenceExpiry_of_end {s : State} (h : s.link.silence = some 0) : silenceExpiry s = silenceRelease (stopSilence s) :=
  if_pos h

/-- Settles O27: at the timer's end the row is silence release after the timer stops, and the stop leaves the table and the
budget unit as they were. -/
theorem silenceReleaseEndsLowerPriorities : Obligations.SilenceReleaseEndsLowerPriorities := by
  intro s
  rw [exec_silenceTimerExpiry]
  refine ⟨fun hrun => by rw [silenceExpiry_of_not_end hrun], fun hend => ?_⟩
  rw [silenceExpiry_of_end hend]
  exact ⟨silenceRelease (stopSilence s), rfl,
    fun k => ⟨gen_silenceRelease (stopSilence s) k, recordOf_silenceRelease (stopSilence s) k⟩,
    budget_silenceRelease_of_grant (stopSilence s), budget_silenceRelease_of_no_grant (stopSilence s),
    silenceRelease_frame (stopSilence s)⟩

end Sys2Proof.Machine
end

section
/-! GRANTED records and the granted sum: the bound of R44 as a statement about a level, what brings it forth (shedding, R41, and
admission, R45 to R47) and what keeps it (every update that neither grants nor raises a draw). -/

namespace Sys2Proof.Machine

/-! ### GRANTED records (R4) -/

/-- Every GRANTED record of the table satisfies `P`. -/
def allGranted (P : Fin 24 → Record → Prop) (s : State) : Prop :=
  ∀ k r, recordOf s k = some r → r.st = .granted → P k r

/-- `t` grants nothing that `s` does not: each record GRANTED in `t` was GRANTED in `s`, with no lower draw. -/
def grantsFall (s t : State) : Prop :=
  allGranted (fun k r' => ∃ r, recordOf s k = some r ∧ r.st = .granted ∧ r'.draw ≤ r.draw) t

section
variable {P : Fin 24 → Record → Prop} {s t : State}

theorem allGranted_congr (h : t.resv.slots = s.resv.slots) : allGranted P t ↔ allGranted P s := by
  simp [allGranted, recordOf, slotOf, h]

/-- A record put in a slot satisfies `P`, or is not GRANTED. -/
theorem allGranted_putRecord {k : Fin 24} {q : Record} (h : allGranted P s) (hq : q.st = .granted → P k q) :
    allGranted P (putRecord k q s) := by
  intro j r hr hst
  rw [recordOf_putRecord] at hr
  split at hr
  · next hj =>
    cases hr
    exact hj ▸ hq hst
  · exact h j r hr hst

theorem allGranted_freeSlot (k : Fin 24) (h : allGranted P s) : allGranted P (freeSlot k s) := by
  intro j r hr hst
  rw [recordOf_freeSlot] at hr
  split at hr
  · cases hr
  · exact h j r hr hst

theorem grantsFall_refl (s : State) : grantsFall s s := fun _ r hr hst => ⟨r, hr, hst, Nat.le_refl _⟩

theorem grantsFall_of_slots_eq (h : t.resv.slots = s.resv.slots) : grantsFall s t :=
  (allGranted_congr h).mpr (grantsFall_refl s)

/-- A record replaced by one that is GRANTED only where it was, with no higher draw. -/
theorem grantsFall_putRecord {k : Fin 24} {r q : Record} (hr : recordOf s k = some r)
    (hq : q.st = .granted → r.st = .granted ∧ q.draw ≤ r.draw) : grantsFall s (putRecord k q s) :=
  allGranted_putRecord (grantsFall_refl s) fun hst => ⟨r, hr, hq hst⟩

/-- A record put in a slot that is not GRANTED. -/
theorem grantsFall_putRecord_of_ne {k : Fin 24} {q : Record} (hq : q.st ≠ .granted) : grantsFall s (putRecord k q s) :=
  allGranted_putRecord (grantsFall_refl s) fun hst => absurd hst hq

theorem grantsFall_freeSlot (k : Fin 24) (s : State) : grantsFall s (freeSlot k s) :=
  allGranted_freeSlot k (grantsFall_refl s)

/-- Every record of `t` is one of `s`, slot by slot, changed in a way that neither grants nor raises a draw. -/
theorem grantsFall_of_map {f : Fin 24 → Record → Record} (h : ∀ k, recordOf t k = (recordOf s k).map (f k))
    (hf : ∀ k r, (f k r).st = .granted → r.st = .granted ∧ (f k r).draw ≤ r.draw) : grantsFall s t := by
  intro k r' hr' hst'
  rw [h k, Option.map_eq_some_iff] at hr'
  obtain ⟨r, hr, rfl⟩ := hr'
  exact ⟨r, hr, hf k r hst'⟩

end

/-! ### The granted sum (R4) -/

/-- The granted sum, slot by slot. -/
theorem grantedSum_eq (s : State) : grantedSum s = ((List.finRange 24).map fun k => grantedDraw (slotOf s k)).sum := by
  unfold grantedSum
  congr 1
  exact List.ext_getElem (by simp) (by simp [slotOf])

theorem grantedDraw_of_granted {s : State} {k : Fin 24} {r : Record} (hr : recordOf s k = some r) (hst : r.st = .granted) :
    grantedDraw (slotOf s k) = r.draw := by
  rw [grantedDraw_of_recordOf hr, if_pos hst]

/-- A slot counts a draw only where it holds a GRANTED record. -/
theorem grantedDraw_eq_zero {s : State} {k : Fin 24} (h : ∀ r, recordOf s k = some r → r.st ≠ .granted) :
    grantedDraw (slotOf s k) = 0 := by
  cases hr : recordOf s k with
  | none =>
    unfold recordOf at hr
    simp [grantedDraw, hr]
  | some r => rw [grantedDraw_of_recordOf hr, if_neg (h r hr)]

/-- Where nothing is newly granted and no draw rises, the granted sum does not rise. -/
theorem grantedSum_le_of_grantsFall {s t : State} (h : grantsFall s t) : grantedSum t ≤ grantedSum s := by
  rw [grantedSum_eq, grantedSum_eq]
  refine List.sum_le_sum fun k _ => ?_
  by_cases hg : ∃ r, recordOf t k = some r ∧ r.st = .granted
  · obtain ⟨r', hr', hst'⟩ := hg
    obtain ⟨r, hr, hst, hle⟩ := h k r' hr' hst'
    rw [grantedDraw_of_granted hr' hst', grantedDraw_of_granted hr hst]
    exact hle
  · rw [grantedDraw_eq_zero fun r hr hst => hg ⟨r, hr, hst⟩]
    exact Nat.zero_le _

theorem grantedSum_eq_zero {s : State} (h : allGranted (fun _ _ => False) s) : grantedSum s = 0 := by
  rw [grantedSum_eq, List.sum_eq_zero_iff, List.forall_mem_map]
  exact fun k _ => grantedDraw_eq_zero fun r hr hst => h k r hr hst

/-- A granted sum of 0 is one of no GRANTED record, since every draw is at least 1 (1.2). -/
theorem no_grant_of_grantedSum_eq_zero {s : State} (hpos : allGranted (fun _ r => 1 ≤ r.draw) s) (h : grantedSum s = 0) :
    allGranted (fun _ _ => False) s := by
  rw [grantedSum_eq, List.sum_eq_zero_iff, List.forall_mem_map] at h
  intro k r hr hst
  have hzero := h k (List.mem_finRange k)
  have hdraw := hpos k r hr hst
  rw [grantedDraw_of_granted hr hst] at hzero
  omega

theorem anyGranted_iff (s : State) : anyGranted s = true ↔ ∃ k r, recordOf s k = some r ∧ r.st = .granted := by
  simp [anyGranted, List.any_eq_true, Option.any_eq_true]

theorem anyGranted_eq_false {s : State} (h : allGranted (fun _ _ => False) s) : anyGranted s = false := by
  rw [← Bool.not_eq_true, anyGranted_iff]
  rintro ⟨k, r, hr, hst⟩
  exact h k r hr hst

/-! ### The bound of R44 -/

/-- Whenever any record is GRANTED, the granted sum with the unaccounted draw `u` is at most `level`. -/
def grantsWithin (level : Int) (u : Nat) (s : State) : Prop := anyGranted s → (grantedSum s : Int) + u ≤ level

/-- R44 is the bound at T − M, with U, of the last pass. -/
theorem grantsBounded_iff (s : State) :
    grantsBounded s = true ↔ grantsWithin ((s.budget.pub.T : Int) - s.budget.pub.M) s.budget.pub.U s := by
  cases h : anyGranted s
  · simp [grantsBounded, grantsWithin, h]
  · simp only [grantsBounded, grantsWithin, h, Bool.not_true, Bool.false_or, decide_eq_true_eq, forall_const]
    omega

theorem grantsWithin_of_no_grant {level : Int} {u : Nat} {s : State} (h : allGranted (fun _ _ => False) s) :
    grantsWithin level u s := by
  intro hany
  rw [anyGranted_eq_false h] at hany
  cases hany

theorem grantsWithin_of_grantsFall {level : Int} {u : Nat} {s t : State} (h : grantsWithin level u s) (hst : grantsFall s t) :
    grantsWithin level u t := by
  intro hany
  obtain ⟨k, r', hr', hst'⟩ := (anyGranted_iff t).mp hany
  obtain ⟨r, hr, hg, -⟩ := hst k r' hr' hst'
  have hs := h ((anyGranted_iff s).mpr ⟨k, r, hr, hg⟩)
  have hle := grantedSum_le_of_grantsFall hst
  omega

/-- The bound of R44 holds on after an update that keeps the published figures, grants nothing and raises no draw. -/
theorem grantsBounded_of_grantsFall {s t : State} (h : grantsBounded s) (hfall : grantsFall s t)
    (hpub : t.budget.pub = s.budget.pub) : grantsBounded t := by
  rw [grantsBounded_iff] at h ⊢
  rw [hpub]
  exact grantsWithin_of_grantsFall h hfall

theorem grantsBounded_putRecord {s : State} {k : Fin 24} {r q : Record} (h : grantsBounded s) (hr : recordOf s k = some r)
    (hq : q.st = .granted → r.st = .granted ∧ q.draw ≤ r.draw) : grantsBounded (putRecord k q s) :=
  grantsBounded_of_grantsFall h (grantsFall_putRecord hr hq) rfl

theorem grantsBounded_putRecord_of_ne {s : State} {k : Fin 24} {q : Record} (h : grantsBounded s) (hq : q.st ≠ .granted) :
    grantsBounded (putRecord k q s) :=
  grantsBounded_of_grantsFall h (grantsFall_putRecord_of_ne hq) rfl

theorem grantsBounded_freeSlot {s : State} (k : Fin 24) (h : grantsBounded s) : grantsBounded (freeSlot k s) :=
  grantsBounded_of_grantsFall h (grantsFall_freeSlot k s) rfl

theorem grantsBounded_of_no_grant {s : State} (h : allGranted (fun _ _ => False) s) : grantsBounded s :=
  (grantsBounded_iff s).mpr (grantsWithin_of_no_grant h)

theorem no_grant_of_reset {s : State} (h : s.resv = Table.reset) : allGranted (fun _ _ => False) s := by
  intro k r hr
  simp [recordOf, slotOf, h, Table.reset, Slot.free] at hr

/-! ### Shedding (R17, R41, R42) -/

/-- A record's draw is at least 1 in a well-formed table (1.2). -/
theorem grants_positive_of_tableOk {s : State} (h : tableOk s) : allGranted (fun _ r => 1 ≤ r.draw) s := by
  intro k r hr _
  simp only [tableOk, Bool.and_eq_true, List.all_eq_true] at h
  obtain ⟨⟨hslots, -⟩, -⟩ := h
  have hslot := hslots k (List.mem_finRange k)
  rw [slotOk, hr, Option.all_some, recordOk] at hslot
  simp only [Bool.and_eq_true, decide_eq_true_eq] at hslot
  tauto

theorem Record.shed_st (k : Fin 24) (r : Record) : (r.shed k).st = .waiting .revoked := rfl

theorem allGranted_shedVerdict {P : Fin 24 → Record → Prop} {s : State} (k : Fin 24) (h : allGranted P s) :
    allGranted P (shedVerdict k s) := by
  unfold shedVerdict
  split
  · exact h
  · exact allGranted_putRecord h fun hst => by simp [Record.shed_st] at hst

/-- Creating or stopping the equalizer grants nothing (R18, R40). -/
theorem allGranted_equalizerStage {P : Fin 24 → Record → Prop} {s : State} (u : Nat) (h : allGranted P s) :
    allGranted P (equalizerStage u s) := by
  unfold equalizerStage
  split
  · split
    · exact allGranted_putRecord (s := takeArrivalStamp s) h fun hst => by cases hst
    · exact h
  · split
    · exact allGranted_freeSlot 0 h
    · exact h

/-- The slots whose record is GRANTED. -/
def grantedSlots (s : State) : Finset (Fin 24) := Finset.univ.filter fun k => ∃ r ∈ recordOf s k, r.st = .granted

theorem mem_grantedSlots {s : State} {k : Fin 24} : k ∈ grantedSlots s ↔ ∃ r, recordOf s k = some r ∧ r.st = .granted := by
  simp [grantedSlots]

/-- A shed verdict takes its record out of GRANTED. -/
theorem card_grantedSlots_shedVerdict {s : State} {k : Fin 24} {r : Record} (hr : recordOf s k = some r)
    (hst : r.st = .granted) : (grantedSlots (shedVerdict k s)).card < (grantedSlots s).card := by
  have hk : k ∈ grantedSlots s := mem_grantedSlots.mpr ⟨r, hr, hst⟩
  have hsub : grantedSlots (shedVerdict k s) ⊆ (grantedSlots s).erase k := by
    intro j hj
    obtain ⟨q, hq, hqst⟩ := mem_grantedSlots.mp hj
    have hjk : j ≠ k := by
      rintro rfl
      simp only [shedVerdict, hr, recordOf_putRecord, if_true, Option.some.injEq] at hq
      simp [← hq, Record.shed_st] at hqst
    simp only [shedVerdict, hr, recordOf_putRecord, if_neg hjk] at hq
    exact Finset.mem_erase.mpr ⟨hjk, mem_grantedSlots.mpr ⟨q, hq, hqst⟩⟩
  exact (Finset.card_le_card hsub).trans_lt (Finset.card_erase_lt_of_mem hk)

/-- One slot's part in finding the first record in shed order: it takes over only where it holds a GRANTED record, and the search
stays without a record only where it holds none. -/
theorem pickShed_cases (best : Option (Fin 24 × Record)) (k : Fin 24) (sl : Slot) :
    (∃ r, sl.record = some r ∧ r.st = .granted ∧ pickShed best k sl = some (k, r)) ∨
      (pickShed best k sl = best ∧ (best = none → ∀ r, sl.record = some r → r.st ≠ .granted)) := by
  cases hr : sl.record with
  | none => exact .inr (by simp [pickShed, hr])
  | some r =>
    by_cases hst : r.st = .granted
    · cases best with
      | none => exact .inl ⟨r, rfl, hst, by simp [pickShed, hr, hst]⟩
      | some p =>
        by_cases hb : shedBefore k r p.1 p.2
        · exact .inl ⟨r, rfl, hst, by simp [pickShed, hr, hst, hb]⟩
        · exact .inr (by simp [pickShed, hr, hst, hb])
    · exact .inr (by simp [pickShed, hr, hst])

/-- The search over a list of slots ends with the record it began with, or with a GRANTED one of the list; without one only where
the list holds none. -/
theorem foldl_pickShed_spec {s : State} (l : List (Fin 24)) {best res : Option (Fin 24 × Record)}
    (hbest : ∀ k r, best = some (k, r) → recordOf s k = some r ∧ r.st = .granted)
    (hres : l.foldl (fun b k => pickShed b k (slotOf s k)) best = res) :
    (∀ k r, res = some (k, r) → recordOf s k = some r ∧ r.st = .granted) ∧
      (res = none → best = none ∧ ∀ k ∈ l, ∀ r, recordOf s k = some r → r.st ≠ .granted) := by
  induction l generalizing best with
  | nil =>
    subst hres
    exact ⟨hbest, fun hnone => ⟨hnone, by simp⟩⟩
  | cons j l ih =>
    rw [List.foldl_cons] at hres
    rcases pickShed_cases best j (slotOf s j) with ⟨q, hq, hst, heq⟩ | ⟨heq, hnone⟩ <;> rw [heq] at hres
    · obtain ⟨hsome, hrest⟩ := ih (fun k r hkr => by cases hkr; exact ⟨hq, hst⟩) hres
      refine ⟨hsome, fun h => ?_⟩
      obtain ⟨hfound, -⟩ := hrest h
      cases hfound
    · obtain ⟨hsome, hrest⟩ := ih hbest hres
      refine ⟨hsome, fun h => ?_⟩
      obtain ⟨hbegan, hl⟩ := hrest h
      exact ⟨hbegan, List.forall_mem_cons.mpr ⟨hnone hbegan, hl⟩⟩

theorem firstToShed_eq_some {s : State} {k : Fin 24} {r : Record} (h : firstToShed s = some (k, r)) :
    recordOf s k = some r ∧ r.st = .granted :=
  (foldl_pickShed_spec (List.finRange 24) (by simp) h).1 k r rfl

theorem firstToShed_eq_none {s : State} (h : firstToShed s = none) : allGranted (fun _ _ => False) s := by
  obtain ⟨-, hnone⟩ := (foldl_pickShed_spec (List.finRange 24) (by simp) h).2 rfl
  exact fun k r hr hst => hnone k (List.mem_finRange k) r hr hst

/-- With steps enough for the GRANTED records, the shedding loop ends within its level or with nothing granted (R41). -/
theorem grantedSum_shedLoop (level : Int) (u n : Nat) (w : Shed) (hn : (grantedSlots w.st).card ≤ n) :
    (grantedSum (shedLoop level u n w).st : Int) + u ≤ level ∨ grantedSum (shedLoop level u n w).st = 0 := by
  induction n generalizing w with
  | zero =>
    have hempty : grantedSlots w.st = ∅ := Finset.card_eq_zero.mp (Nat.le_zero.mp hn)
    refine .inr (grantedSum_eq_zero fun k r hr hst => ?_)
    have hk : k ∈ grantedSlots w.st := mem_grantedSlots.mpr ⟨r, hr, hst⟩
    simp [hempty] at hk
  | succ n ih =>
    unfold shedLoop
    split
    · next hdone => exact hdone
    · split
      · next hnone => exact .inr (grantedSum_eq_zero (firstToShed_eq_none hnone))
      · next k r hfirst =>
        obtain ⟨hr, hst⟩ := firstToShed_eq_some hfirst
        have hcard := card_grantedSlots_shedVerdict hr hst
        exact ih ⟨count .recordsShed (shedVerdict k w.st), _, _⟩ (Nat.le_of_lt_succ (hcard.trans_le hn))

theorem allGranted_shedLoop {P : Fin 24 → Record → Prop} (level : Int) (u n : Nat) (w : Shed) (h : allGranted P w.st) :
    allGranted P (shedLoop level u n w).st := by
  induction n generalizing w with
  | zero => exact h
  | succ n ih =>
    unfold shedLoop
    split
    · exact h
    · split
      · exact h
      · next k r _ => exact ih ⟨count .recordsShed (shedVerdict k w.st), _, _⟩ (allGranted_shedVerdict k h)

theorem shedStage_resv (level : Int) (u : Nat) (s : State) :
    (shedStage level u s).st.resv = (shedLoop level u 24 ⟨s, 0, false⟩).st.resv := by
  unfold shedStage
  dsimp only
  split <;> split <;> rfl

/-- Shedding brings the granted sum within its level, or leaves nothing granted (R41). -/
theorem grantsWithin_shedStage {level : Int} {u : Nat} {s : State} (hpos : allGranted (fun _ r => 1 ≤ r.draw) s) :
    grantsWithin level u (shedStage level u s).st := by
  have hslots := congrArg Table.slots (shedStage_resv level u s)
  refine grantsWithin_of_grantsFall (s := (shedLoop level u 24 ⟨s, 0, false⟩).st) ?_ (grantsFall_of_slots_eq hslots)
  rcases grantedSum_shedLoop level u 24 ⟨s, 0, false⟩ (Finset.card_le_univ _) with hle | hzero
  · exact fun _ => hle
  · exact grantsWithin_of_no_grant (no_grant_of_grantedSum_eq_zero (allGranted_shedLoop level u 24 _ hpos) hzero)

/-! ### Admission (R15, R16, R45 to R47) -/

theorem grantsFall_noRoomVerdict (k : Fin 24) (s : State) : grantsFall s (noRoomVerdict k s) := by
  unfold noRoomVerdict
  split
  · exact grantsFall_refl s
  · split
    · exact grantsFall_putRecord_of_ne (by simp [Record.marked])
    · exact grantsFall_refl s

theorem recordOf_noRoomVerdict_of_ne {k j : Fin 24} (s : State) (h : j ≠ k) :
    recordOf (noRoomVerdict k s) j = recordOf s j := by
  unfold noRoomVerdict
  split
  · rfl
  · split
    · rw [recordOf_putRecord, if_neg h]
    · rfl

theorem recordOf_grantVerdict_of_ne {k j : Fin 24} (s : State) (h : j ≠ k) :
    recordOf (grantVerdict k s) j = recordOf s j := by
  unfold grantVerdict
  split
  · rfl
  · rw [recordOf_putRecord, if_neg h]
    rfl

/-- A candidate's verdict concerns its own slot alone. -/
theorem recordOf_walkStep_of_ne {level : Int} {u : Nat} {w : Walk} {c : Candidate} {j : Fin 24} (h : j ≠ c.slot) :
    recordOf (walkStep level u w c).st j = recordOf w.st j := by
  unfold walkStep
  split
  · exact recordOf_noRoomVerdict_of_ne w.st h
  · split
    · exact recordOf_grantVerdict_of_ne w.st h
    · exact recordOf_noRoomVerdict_of_ne w.st h

theorem candidateAt_congr {s t : State} {k : Fin 24} (h : recordOf t k = recordOf s k) : candidateAt t k = candidateAt s k := by
  unfold candidateAt
  rw [h]

/-- A candidate is the record of its slot with that record's need. -/
theorem candidateAt_eq_some {s : State} {k : Fin 24} {c : Candidate} (h : candidateAt s k = some c) :
    c.slot = k ∧ ∃ r, recordOf s k = some r ∧ needOf r = some c.need := by
  unfold candidateAt at h
  split at h
  · cases h
  · next r hr =>
    obtain ⟨n, hn, rfl⟩ := Option.map_eq_some_iff.mp h
    exact ⟨rfl, r, hr, hn⟩

theorem Record.grant_st (k : Fin 24) (stamp : Nat) (r : Record) : (r.grant k stamp).st = .granted := by
  unfold Record.grant
  split
  · next hst => exact hst
  · rfl

/-- A granted record counts at most its need more than before (R15, R45). -/
theorem Record.grant_draw_le {k : Fin 24} {r : Record} {n : Nat} (stamp : Nat) (h : needOf r = some n) :
    (r.grant k stamp).draw ≤ (if r.st = .granted then r.draw else 0) + n := by
  cases hst : r.st with
  | granted =>
    simp only [needOf, hst, Option.map_eq_some_iff] at h
    obtain ⟨p, hp, rfl⟩ := h
    simp only [Record.grant, Record.marked, hst, hp, if_true, Option.getD_some]
    omega
  | pending => simp_all [needOf, Record.grant, Record.marked]
  | waiting c => simp_all [needOf, Record.grant, Record.marked]
  | ended c => simp [needOf, hst] at h

/-- A grant verdict raises the granted sum by at most the candidate's need. -/
theorem grantedSum_grantVerdict_le {s : State} {k : Fin 24} {r : Record} {n : Nat} (hr : recordOf s k = some r)
    (hn : needOf r = some n) : grantedSum (grantVerdict k s) ≤ grantedSum s + n := by
  have hsum := grantedSum_putRecord k (r.grant k (nextStamp s.resv.grants)) (takeGrantStamp s)
  have hold : grantedDraw (slotOf (takeGrantStamp s) k) = if r.st = .granted then r.draw else 0 := grantedDraw_of_recordOf hr
  have hstamp : grantedSum (takeGrantStamp s) = grantedSum s := rfl
  have hdraw := Record.grant_draw_le (k := k) (nextStamp s.resv.grants) hn
  rw [Record.grant_st, if_pos rfl, hold, hstamp] at hsum
  simp only [grantVerdict, hr]
  omega

/-- One candidate of the walk keeps the bound at any level that the walk's own does not pass: a grant fits by R47, and a no-room
verdict grants nothing. -/
theorem grantsWithin_walkStep {level bound : Int} {u : Nat} {w : Walk} {c : Candidate} (hle : level ≤ bound)
    (hc : candidateAt w.st c.slot = some c) (h : grantsWithin bound u w.st) :
    grantsWithin bound u (walkStep level u w c).st := by
  have hnoRoom := grantsWithin_of_grantsFall h (grantsFall_noRoomVerdict c.slot w.st)
  unfold walkStep
  split
  · exact hnoRoom
  · split
    · next hfits =>
      obtain ⟨-, r, hr, hn⟩ := candidateAt_eq_some hc
      have hsum := grantedSum_grantVerdict_le hr hn
      intro _
      dsimp only
      omega
    · exact hnoRoom

/-- The walk over candidates of distinct slots keeps the bound. -/
theorem grantsWithin_walk {level bound : Int} {u : Nat} (hle : level ≤ bound) (cs : List Candidate) (w : Walk)
    (hdistinct : cs.Pairwise fun a b => a.slot ≠ b.slot) (hcs : ∀ c ∈ cs, candidateAt w.st c.slot = some c)
    (h : grantsWithin bound u w.st) : grantsWithin bound u (cs.foldl (walkStep level u) w).st := by
  induction cs generalizing w with
  | nil => exact h
  | cons c cs ih =>
    obtain ⟨hc, hcs⟩ := List.forall_mem_cons.mp hcs
    obtain ⟨hne, hdistinct⟩ := List.pairwise_cons.mp hdistinct
    refine ih _ hdistinct (fun d hd => ?_) (grantsWithin_walkStep hle hc h)
    rw [candidateAt_congr (recordOf_walkStep_of_ne (hne d hd).symm)]
    exact hcs d hd

theorem insertCandidate_perm (c : Candidate) (l : List Candidate) : (insertCandidate c l).Perm (c :: l) := by
  induction l with
  | nil => exact .refl _
  | cons d l ih =>
    unfold insertCandidate
    split
    · exact .refl _
    · exact (ih.cons d).trans (.swap c d l)

/-- Admission order arranges the candidates of the slots, and neither drops nor adds one (R45). -/
theorem candidates_perm (s : State) : (candidates s).Perm ((List.finRange 24).filterMap (candidateAt s)) := by
  unfold candidates
  induction (List.finRange 24).filterMap (candidateAt s) with
  | nil => exact .refl _
  | cons c l ih => exact (insertCandidate_perm c _).trans (ih.cons c)

theorem candidateAt_of_mem_candidates {s : State} {c : Candidate} (h : c ∈ candidates s) : candidateAt s c.slot = some c := by
  obtain ⟨k, -, hk⟩ := List.mem_filterMap.mp ((candidates_perm s).mem_iff.mp h)
  obtain ⟨rfl, -⟩ := candidateAt_eq_some hk
  exact hk

theorem candidates_distinct (s : State) : (candidates s).Pairwise fun a b => a.slot ≠ b.slot := by
  refine (candidates_perm s).pairwise_iff (fun h => h.symm) |>.mpr ?_
  refine List.pairwise_filterMap.mpr ((List.nodup_finRange 24).imp ?_)
  intro j k hjk a ha b hb
  obtain ⟨rfl, -⟩ := candidateAt_eq_some ha
  obtain ⟨rfl, -⟩ := candidateAt_eq_some hb
  exact hjk

/-- Admission keeps the bound at every level that its own does not pass (R46, R47). -/
theorem grantsWithin_admitStage {level bound : Int} {u : Nat} {s : State} (hle : level ≤ bound) (h : grantsWithin bound u s) :
    grantsWithin bound u (admitStage level u s).st :=
  grantsWithin_walk hle (candidates s) ⟨s, none, 0⟩ (candidates_distinct s) (fun _ hc => candidateAt_of_mem_candidates hc) h

/-! ### The pass (R32, R44) -/

/-- The split stage stops the equalizer or leaves the table alone (R55). -/
theorem grantsFall_splitStage (c : Capability) (u : Nat) (s : State) : grantsFall s (splitStage c u s).st := by
  unfold splitStage
  dsimp only
  split
  · unfold plainSplit
    split <;> exact grantsFall_refl s
  · split
    · exact grantsFall_freeSlot 0 s
    · unfold transferSplit
      split <;> exact grantsFall_refl s

theorem sameButTable_lim {s t : State} (h : sameButTable s t) : t.lim = s.lim := by
  rw [h]

/-- A pass leaves the granted sum within T − M − U as it publishes them: shedding brings it there, admission stays T − M − H or lower,
and the split stage only frees (R41, R44, R47). -/
theorem grantsBounded_budgetPass {s : State} (h : tableOk s) : grantsBounded (budgetPass s) := by
  have hdroop : (droopStep s).resv = s.resv := by rw [droopStep_frame]
  have hpos : allGranted (fun _ r => 1 ≤ r.draw) (droopStep s) :=
    (allGranted_congr (congrArg Table.slots hdroop)).mpr (grants_positive_of_tableOk h)
  unfold budgetPass
  extract_lets s0 c u w a
  have hframe : sameButTable s0 (splitStage c u a.st).st :=
    sameButTable_trans (equalizerStage_frame u s0) <| sameButTable_trans (shedStage_frame _ u _) <|
      sameButTable_trans (admitStage_frame _ u _) (splitStage_frame c u _)
  have hshed : grantsWithin (shedLevel c s0.lim) u w.st := grantsWithin_shedStage (allGranted_equalizerStage u hpos)
  have hlevels : admitLevel c s0.lim ≤ shedLevel c s0.lim := by
    unfold admitLevel shedLevel
    omega
  have hsplit := grantsWithin_of_grantsFall (grantsWithin_admitStage hlevels hshed) (grantsFall_splitStage c u a.st)
  rw [grantsBounded_iff]
  show grantsWithin ((c.T : Int) - (splitStage c u a.st).st.lim.margin) u (splitStage c u a.st).st
  rw [sameButTable_lim hframe]
  exact hsplit

end Sys2Proof.Machine
end

section
/-! The rows that leave the reservation table and the published figures alone, block by block: every update outside the table and the
pass keeps the ledger that the bound of R44 reads. -/

namespace Sys2Proof.Machine

/-- What the bound of R44 reads of a state: the reservation table and the figures the last pass published. -/
def ledger (s : State) : Table × Published := (s.resv, s.budget.pub)

/-! ### Shared updates -/

@[simp] theorem ledger_latch (c : Condition) (s : State) : ledger (latch c s) = ledger s := rfl
@[simp] theorem ledger_count (i : CounterId) (s : State) : ledger (count i s) = ledger s := rfl
@[simp] theorem ledger_placeAnswer (o : Outc) (p : List Byte) (s : State) : ledger (placeAnswer o p s) = ledger s := rfl
@[simp] theorem ledger_setCmd (x : Cell) (c : Int) (s : State) : ledger (setCmd x c s) = ledger s := rfl
@[simp] theorem ledger_putCharge (x : Cell) (c : Charge) (s : State) : ledger (putCharge x c s) = ledger s := rfl
@[simp] theorem ledger_putBranch (x : Cell) (b : Branch) (s : State) : ledger (putBranch x b s) = ledger s := rfl
@[simp] theorem ledger_putLoad (l : Load) (s : State) : ledger (putLoad l s) = ledger s := rfl
@[simp] theorem ledger_putMonitor (x : Cell) (m : Monitor) (s : State) : ledger (putMonitor x m s) = ledger s := rfl
@[simp] theorem ledger_putReading (x : Cell) (r : Reading) (s : State) : ledger (putReading x r s) = ledger s := rfl
@[simp] theorem ledger_putHinge (h : Hinge) (s : State) : ledger (putHinge h s) = ledger s := rfl
@[simp] theorem ledger_withRequest (s : State) : ledger (withRequest s) = ledger s := rfl
@[simp] theorem ledger_withCount (x : Cell) (n : Nat) (s : State) : ledger (withCount x n s) = ledger s := rfl

@[simp] theorem ledger_requestPass (s : State) : ledger (requestPass s) = ledger s := by
  rw [requestPass_eq, ledger_withRequest]

@[simp] theorem ledger_requestPassIf (c : Bool) (s : State) : ledger (requestPassIf c s) = ledger s := by
  unfold requestPassIf
  split
  · exact ledger_requestPass s
  · rfl

/-! ### Charge control (5) -/

@[simp] theorem ledger_moveCharge (x : Cell) (c : Charge) (s : State) : ledger (moveCharge x c s) = ledger s := by
  simp [moveCharge]

@[simp] theorem ledger_enterFull (x : Cell) (s : State) : ledger (enterFull x s) = ledger s := by
  simp [enterFull, anchorCount_eq]

@[simp] theorem ledger_enterChgFault (x : Cell) (c : ChgFault) (s : State) : ledger (enterChgFault x c s) = ledger s := by
  simp [enterChgFault]

@[simp] theorem ledger_enterHold (x : Cell) (s : State) : ledger (enterHold x s) = ledger s :=
  ledger_moveCharge x _ s

@[simp] theorem ledger_beginSession (x : Cell) (p : Phase) (s : State) : ledger (beginSession x p s) = ledger s :=
  ledger_moveCharge x _ s

@[simp] theorem ledger_enterOff (x : Cell) (s : State) : ledger (enterOff x s) = ledger s :=
  ledger_moveCharge x _ s

@[simp] theorem ledger_resetCharge (x : Cell) (s : State) : ledger (resetCharge x s) = ledger s :=
  ledger_moveCharge x _ s

@[simp] theorem ledger_startTest (x : Cell) (v : Nat) (s : State) : ledger (startTest x v s) = ledger s := by
  simp [startTest, apply_ite ledger]

@[simp] theorem ledger_resumeTest (x : Cell) (v : Nat) (s : State) : ledger (resumeTest x v s) = ledger s := by
  simp [resumeTest, apply_ite ledger]

@[simp] theorem ledger_rechargeTest (x : Cell) (v : Nat) (s : State) : ledger (rechargeTest x v s) = ledger s := by
  simp [rechargeTest, apply_ite ledger]

@[simp] theorem ledger_prechargeTest (x : Cell) (v : Nat) (s : State) : ledger (prechargeTest x v s) = ledger s := by
  simp [prechargeTest, apply_ite ledger]

@[simp] theorem ledger_fastTest (x : Cell) (v : Nat) (s : State) : ledger (fastTest x v s) = ledger s := by
  simp [fastTest, apply_ite ledger]

@[simp] theorem ledger_taperTest (x : Cell) (i : Int) (s : State) : ledger (taperTest x i s) = ledger s := by
  simp [taperTest, apply_ite ledger]

@[simp] theorem ledger_phaseTests (x : Cell) (v : Nat) (i : Int) (s : State) : ledger (phaseTests x v i s) = ledger s := by
  unfold phaseTests
  split <;> simp [apply_ite ledger]

@[simp] theorem ledger_heldSlotTest (x : Cell) (s : State) : ledger (heldSlotTest x s) = ledger s := by
  unfold heldSlotTest
  split <;> simp [apply_ite ledger]

@[simp] theorem ledger_evalAccepted (x : Cell) (v : Nat) (i : Int) (s : State) : ledger (evalAccepted x v i s) = ledger s := by
  simp [evalAccepted, apply_ite ledger]

@[simp] theorem ledger_chargeSlot (x : Cell) (accepted : Bool) (s : State) : ledger (chargeSlot x accepted s) = ledger s := by
  unfold chargeSlot
  split
  · rfl
  · simp [handTarget, apply_ite ledger]

@[simp] theorem ledger_prechargeExpiry (x : Cell) (s : State) : ledger (prechargeExpiry x s) = ledger s := by
  simp [prechargeExpiry, apply_ite ledger]

@[simp] theorem ledger_fastExpiry (x : Cell) (s : State) : ledger (fastExpiry x s) = ledger s := by
  simp [fastExpiry, apply_ite ledger]

@[simp] theorem ledger_overvoltageRun (x : Cell) (s : State) : ledger (overvoltageRun x s) = ledger s := by
  simp [overvoltageRun, apply_ite ledger]

@[simp] theorem ledger_terminationRun (x : Cell) (s : State) : ledger (terminationRun x s) = ledger s := by
  simp [terminationRun, apply_ite ledger]

@[simp] theorem ledger_clearChgFault (x : Cell) (s : State) : ledger (clearChgFault x s) = ledger s := by
  simp [clearChgFault, apply_ite ledger]

/-! ### Branch protection and the system load monitor (6) -/

@[simp] theorem ledger_moveBranch (x : Cell) (b : Branch) (s : State) : ledger (moveBranch x b s) = ledger s := by
  rw [moveBranch_eq]
  unfold ledger
  dsimp only
  split <;> rfl

@[simp] theorem ledger_tripDischarge (x : Cell) (s : State) : ledger (tripDischarge x s) = ledger s := by
  simp [tripDischarge, apply_ite ledger]

@[simp] theorem ledger_tripCharge (x : Cell) (s : State) : ledger (tripCharge x s) = ledger s := by
  simp [tripCharge, apply_ite ledger]

@[simp] theorem ledger_tripCutoff (x : Cell) (s : State) : ledger (tripCutoff x s) = ledger s := by
  simp [tripCutoff, anchorCount_eq]

/-- The five tests of an accepted sample, in their order (R107). -/
@[simp] theorem ledger_branchTests (x : Cell) (v : Nat) (i t : Int) (s : State) : ledger (branchTests x v i t s) = ledger s := by
  have discharge (u : State) : ledger (dischargeTest x i u) = ledger u := by simp [dischargeTest, apply_ite ledger]
  have charge (u : State) : ledger (chargeTest x i u) = ledger u := by simp [chargeTest, apply_ite ledger]
  have overtemp (u : State) : ledger (overtempTest x t u) = ledger u := by simp [overtempTest, apply_ite ledger]
  have cutoff (u : State) : ledger (cutoffTest x v u) = ledger u := by simp [cutoffTest, apply_ite ledger]
  have release (u : State) : ledger (cutoffRelease x v u) = ledger u := by simp [cutoffRelease, apply_ite ledger]
  rw [branchTests, release, cutoff, overtemp, charge, discharge]

@[simp] theorem ledger_branchSlot (x : Cell) (accepted : Bool) (s : State) : ledger (branchSlot x accepted s) = ledger s := by
  unfold branchSlot
  split
  · rfl
  · simp [apply_ite ledger]

@[simp] theorem ledger_dischargeRun (x : Cell) (s : State) : ledger (dischargeRun x s) = ledger s := by
  simp [dischargeRun, apply_ite ledger]

@[simp] theorem ledger_chargeRun (x : Cell) (s : State) : ledger (chargeRun x s) = ledger s := by
  simp [chargeRun, apply_ite ledger]

@[simp] theorem ledger_cutoffRun (x : Cell) (s : State) : ledger (cutoffRun x s) = ledger s := by
  simp [cutoffRun, apply_ite ledger]

@[simp] theorem ledger_resetBranch (x : Cell) (s : State) : ledger (resetBranch x s) = ledger s :=
  ledger_moveBranch x _ s

@[simp] theorem ledger_turnOverdrawOn (s : State) : ledger (turnOverdrawOn s) = ledger s := by
  simp [turnOverdrawOn]

@[simp] theorem ledger_turnOverdrawOff (s : State) : ledger (turnOverdrawOff s) = ledger s := by
  simp [turnOverdrawOff]

@[simp] theorem ledger_overdrawOnRun (s : State) : ledger (overdrawOnRun s) = ledger s := by
  simp [overdrawOnRun, apply_ite ledger]

@[simp] theorem ledger_overdrawOffRun (s : State) : ledger (overdrawOffRun s) = ledger s := by
  simp [overdrawOffRun, apply_ite ledger]

@[simp] theorem ledger_resetLoad (s : State) : ledger (resetLoad s) = ledger s := rfl

@[simp] theorem ledger_loadSample (p : Int) (s : State) : ledger (loadSample p s) = ledger s := by
  simp only [loadSample, loadOnTest, loadOffTest, apply_ite ledger, ledger_turnOverdrawOn, ledger_turnOverdrawOff, ledger_putLoad,
    ite_self]
  rfl

/-! ### Cell monitors (4) -/

@[simp] theorem ledger_handOn (x : Cell) (accepted : Bool) (order : SlotOrder) (s : State) :
    ledger (handOn x accepted order s) = ledger s := by
  cases order <;> simp [handOn]

@[simp] theorem ledger_storeSample (x : Cell) (v : Nat) (i t : Int) (farOt : Bool) (counted : Int) (s : State) :
    ledger (storeSample x v i t farOt counted s) = ledger s := by
  unfold storeSample noteZone
  dsimp only
  split <;> simp [apply_ite ledger]

@[simp] theorem ledger_cellASample (v i t : Int) (order : SlotOrder) (s : State) :
    ledger (cellASample v i t order s) = ledger s := by
  simp only [cellASample, ledger_handOn, ledger_storeSample]
  rfl

@[simp] theorem ledger_cellBGood (f : FarSample) (order : SlotOrder) (s : State) : ledger (cellBGood f order s) = ledger s := by
  simp [cellBGood, noteEstimated]

@[simp] theorem ledger_cellBHeld (s : State) : ledger (cellBHeld s) = ledger s := by
  unfold cellBHeld
  split
  · rfl
  · simp [noteEstimated]

@[simp] theorem ledger_rescale (x : Cell) (old : Nat) (s : State) : ledger (rescale x old s) = ledger s := by
  unfold rescale
  split <;> rfl

/-! ### Hinge link controller (7) -/

@[simp] theorem ledger_setDataState (d : DataState) (s : State) : ledger (setDataState d s) = ledger s := by
  simp [setDataState]

@[simp] theorem ledger_zeroChargeB (s : State) : ledger (zeroChargeB s) = ledger s := by
  simp [zeroChargeB, apply_ite ledger]

@[simp] theorem ledger_enterStale (s : State) : ledger (enterStale s) = ledger s := by
  simp [enterStale]

@[simp] theorem ledger_recover (s : State) : ledger (recover s) = ledger s := by
  simp [recover]

@[simp] theorem ledger_onFailed (s : State) : ledger (onFailed s) = ledger s := by
  unfold onFailed
  dsimp only
  split <;> simp [apply_ite ledger]

@[simp] theorem ledger_onGood (s : State) : ledger (onGood s) = ledger s := by
  unfold onGood
  split <;> simp [onGoodRecovering, apply_ite ledger]

@[simp] theorem ledger_failExchange (f : Failure) (s : State) : ledger (failExchange f s) = ledger s := by
  simp [failExchange]

@[simp] theorem ledger_goodExchange (m : SampleMsg) (order : SlotOrder) (s : State) :
    ledger (goodExchange m order s) = ledger s := by
  simp [goodExchange]

@[simp] theorem ledger_hingeSlot (hslLow : Bool) (s : State) : ledger (hingeSlot hslLow s) = ledger s := by
  simp only [hingeSlot, apply_ite ledger, ledger_failExchange, ledger_putHinge, ite_self]
  rfl

@[simp] theorem ledger_pollCollision (s : State) : ledger (pollCollision s) = ledger s := by
  unfold pollCollision
  split <;> simp

@[simp] theorem ledger_pollComplete (s : State) : ledger (pollComplete s) = ledger s := by
  unfold pollComplete
  split <;> rfl

@[simp] theorem ledger_replyWindowExpiry (begun : Bool) (s : State) : ledger (replyWindowExpiry begun s) = ledger s := by
  unfold replyWindowExpiry
  split <;> simp [apply_ite ledger]

@[simp] theorem ledger_sampleRead (line : List Bool) (order : SlotOrder) (s : State) :
    ledger (sampleRead line order s) = ledger s := by
  unfold sampleRead judgeSample
  split <;> simp [apply_ite ledger]

@[simp] theorem ledger_farBreak (s : State) : ledger (farBreak s) = ledger s := by
  unfold farBreak
  split <;> simp

@[simp] theorem ledger_breakEnd (s : State) : ledger (breakEnd s) = ledger s := by
  simp [breakEnd, apply_ite ledger]

@[simp] theorem ledger_replyRise (c : FramingCause) (s : State) : ledger (replyRise c s) = ledger s := by
  unfold replyRise
  split
  · cases c <;> simp [apply_ite ledger]
  · rfl
  · rfl

@[simp] theorem ledger_failureRun (s : State) : ledger (failureRun s) = ledger s := by
  simp [failureRun, apply_ite ledger]

@[simp] theorem ledger_goodRun (order : SlotOrder) (s : State) : ledger (goodRun order s) = ledger s := by
  unfold goodRun
  split
  · split <;> simp
  · rfl

@[simp] theorem ledger_degradedExpiry (s : State) : ledger (degradedExpiry s) = ledger s := by
  simp [degradedExpiry, apply_ite ledger]

/-! ### Source arbiter, input ports and die monitor (8, 9) -/

theorem ledger_switchOpened (dest : ArbState) (s : State) : ledger (switchOpened dest s) = ledger s := rfl

@[simp] theorem ledger_goActive (p : PortId) (s : State) : ledger (goActive p s) = ledger s := by
  unfold goActive activatePort
  rw [ledger_requestPass]
  split <;> rfl

@[simp] theorem ledger_goIdle (dest : ArbState) (s : State) : ledger (goIdle dest s) = ledger s := by
  rw [goIdle_eq]
  rfl

@[simp] theorem ledger_breakExpiry (s : State) : ledger (breakExpiry s) = ledger s := by
  unfold breakExpiry endChangeover
  split
  · dsimp only
    split
    · split
      · rw [ledger_latch, ledger_goActive]
        rfl
      · rw [ledger_goIdle]
        rfl
    · rfl
  · rfl

@[simp] theorem ledger_preferenceChange (s : State) : ledger (preferenceChange s) = ledger s := by
  unfold preferenceChange
  split
  · simp [apply_ite ledger, leaveActive_eq, ledger_switchOpened]
  · rfl
  · rfl

/-- A change of eligibility reaches the arbiter, the ports, charge control and the pass request, and not the ledger (R147, R148). -/
@[simp] theorem ledger_handEligibility (p : PortId) (b : Bool) (s : State) : ledger (handEligibility p b s) = ledger s := by
  have gain : ledger (arbGain p s) = ledger s := by
    unfold arbGain
    split <;> simp [apply_ite ledger, leaveActive_eq, ledger_switchOpened]
  have loss : ledger (arbLoss p s) = ledger s := by
    unfold arbLoss
    split <;> simp [apply_ite ledger, leaveActive_eq, ledger_switchOpened]
  simp [handEligibility, apply_ite ledger, gain, loss]

@[simp] theorem ledger_stepPort (p : PortId) (w : PortStep) (s : State) : ledger (stepPort p w s) = ledger s := by
  rw [stepPort_eq, ledger_handEligibility]
  unfold portStepped
  split <;> rfl

@[simp] theorem ledger_inputSample (p : PortId) (vin : Int) (s : State) : ledger (inputSample p vin s) = ledger s :=
  ledger_stepPort p _ _

@[simp] theorem ledger_attachRun (p : PortId) (s : State) : ledger (attachRun p s) = ledger s := by
  simp [attachRun, apply_ite ledger]

@[simp] theorem ledger_detachRun (p : PortId) (s : State) : ledger (detachRun p s) = ledger s := by
  simp [detachRun, apply_ite ledger]

@[simp] theorem ledger_inputOvervoltageRun (p : PortId) (s : State) : ledger (inputOvervoltageRun p s) = ledger s := by
  simp [inputOvervoltageRun, apply_ite ledger]

@[simp] theorem ledger_offerWindowExpiry (p : PortId) (s : State) : ledger (offerWindowExpiry p s) = ledger s := by
  simp [offerWindowExpiry, apply_ite ledger]

@[simp] theorem ledger_confirmExpiry (p : PortId) (s : State) : ledger (confirmExpiry p s) = ledger s := by
  simp [confirmExpiry, apply_ite ledger]

@[simp] theorem ledger_verifyExpiry (p : PortId) (s : State) : ledger (verifyExpiry p s) = ledger s := by
  simp [verifyExpiry, apply_ite ledger]

@[simp] theorem ledger_reevaluateBoth (s : State) : ledger (reevaluateBoth s) = ledger s := by
  have one (p : PortId) (u : State) : ledger (reevaluatePort p u) = ledger u := by
    simp [reevaluatePort, apply_ite ledger]
  simp [reevaluateBoth, apply_ite ledger, one]

@[simp] theorem ledger_dieSample (t : Int) (s : State) : ledger (dieSample t s) = ledger s := by
  simp only [dieSample, setDieZone, apply_ite ledger, ledger_reevaluateBoth]
  split
  · rfl
  · split <;> rfl

/-! ### The fold line (R37) -/

@[simp] theorem ledger_foldLevelChange (high : Bool) (s : State) : ledger (foldLevelChange high s) = ledger s := by
  unfold foldLevelChange
  split <;> rfl

@[simp] theorem ledger_foldSettleExpiry (s : State) : ledger (foldSettleExpiry s) = ledger s := by
  unfold foldSettleExpiry
  split
  · rw [ledger_requestPassIf]
    rfl
  · rfl

/-! ### Control link port, limit set and condition unit (10, 11) -/

@[simp] theorem ledger_restartSilence (s : State) : ledger (restartSilence s) = ledger s := rfl
@[simp] theorem ledger_erredFrame (out : Outc) (s : State) : ledger (erredFrame out s) = ledger s := rfl
@[simp] theorem ledger_rstnRise (s : State) : ledger (rstnRise s) = ledger s := rfl

@[simp] theorem ledger_frameTimeout (s : State) : ledger (frameTimeout s) = ledger s := by
  unfold frameTimeout
  split <;> rfl

@[simp] theorem ledger_lselFall (s : State) : ledger (lselFall s) = ledger s := by
  unfold lselFall
  split
  · dsimp only
    split
    · rfl
    · split <;> rfl
  · rfl

@[simp] theorem ledger_applyWrite (a : LimitAddr) (l : Limits) (s : State) : ledger (applyWrite a l s) = ledger s := by
  have handOff (old : Limits) (u : State) : ledger (handOffLimit a old u) = ledger u := by
    unfold handOffLimit
    split <;> simp
  unfold applyWrite
  split
  · rfl
  · rw [handOff, ledger_requestPass]
    rfl

end Sys2Proof.Machine
end

section
/-! The bound of R44 along every row: the commands of a frame, the resets, the ends of records, the passes, and a millisecond. -/

namespace Sys2Proof.Machine

/-! ### The bound and the ledger -/

theorem grantsBounded_of_ledger {s t : State} (hl : ledger t = ledger s) (h : grantsBounded s) : grantsBounded t := by
  obtain ⟨hresv, hpub⟩ := Prod.mk.inj hl
  exact grantsBounded_of_grantsFall h (grantsFall_of_slots_eq (congrArg Table.slots hresv)) hpub

/-! ### Commands (1.5, 10.3) -/

/-- A command after which the bound of R44 stands if it stood before, whatever its arguments. -/
def keepsBound (cmd : List Byte → State → Result) : Prop :=
  ∀ args s, grantsBounded s → grantsBounded (cmd args s).st

theorem keepsBound_of_ledger {cmd : List Byte → State → Result} (h : ∀ args s, ledger (cmd args s).st = ledger s) :
    keepsBound cmd :=
  fun args s => grantsBounded_of_ledger (h args s)

theorem keepsBound_nopCmd : keepsBound nopCmd :=
  keepsBound_of_ledger fun args s => by cases args <;> rfl

theorem keepsBound_queryCmd : keepsBound queryCmd := by
  refine keepsBound_of_ledger fun args s => ?_
  unfold queryCmd
  split
  · split <;> rfl
  · rfl

theorem keepsBound_readBudgetCmd : keepsBound readBudgetCmd :=
  keepsBound_of_ledger fun args s => by cases args <;> rfl

theorem keepsBound_readCellCmd : keepsBound readCellCmd := by
  refine keepsBound_of_ledger fun args s => ?_
  unfold readCellCmd
  split <;> rfl

theorem keepsBound_readInputCmd : keepsBound readInputCmd := by
  refine keepsBound_of_ledger fun args s => ?_
  unfold readInputCmd
  split <;> rfl

theorem keepsBound_offersCmd : keepsBound offersCmd := by
  refine keepsBound_of_ledger fun args s => ?_
  unfold offersCmd
  split
  · rfl
  · simp [refuse, apply_ite Result.st, apply_ite ledger]

theorem keepsBound_appliedCmd : keepsBound appliedCmd := by
  refine keepsBound_of_ledger fun args s => ?_
  unfold appliedCmd
  split
  · rfl
  · simp [refuse, doneWith, apply_ite Result.st, apply_ite ledger]

theorem keepsBound_isolateCmd : keepsBound isolateCmd := by
  refine keepsBound_of_ledger fun args s => ?_
  unfold isolateCmd
  split
  · rfl
  · simp [refuse, doneWith, apply_ite Result.st, apply_ite ledger]

theorem keepsBound_isolateCellCmd : keepsBound isolateCellCmd := by
  refine keepsBound_of_ledger fun args s => ?_
  unfold isolateCellCmd
  split
  · rfl
  · exact ledger_moveBranch _ _ s

theorem keepsBound_clearFaultCmd : keepsBound clearFaultCmd := by
  refine keepsBound_of_ledger fun args s => ?_
  unfold clearFaultCmd
  split
  · rfl
  · simp [doneWith, dropCauses, apply_ite ledger]

theorem keepsBound_setLimitCmd : keepsBound setLimitCmd := by
  refine keepsBound_of_ledger fun args s => ?_
  unfold setLimitCmd
  split
  · rfl
  · simp [refuse, apply_ite Result.st, apply_ite ledger]

theorem keepsBound_getLimitCmd : keepsBound getLimitCmd := by
  refine keepsBound_of_ledger fun args s => ?_
  unfold getLimitCmd
  split <;> rfl

theorem keepsBound_lockLimitsCmd : keepsBound lockLimitsCmd :=
  keepsBound_of_ledger fun args s => by cases args <;> rfl

theorem keepsBound_readConditionsCmd : keepsBound readConditionsCmd :=
  keepsBound_of_ledger fun args s => by cases args <;> rfl

theorem keepsBound_setMasksCmd : keepsBound setMasksCmd := by
  refine keepsBound_of_ledger fun args s => ?_
  unfold setMasksCmd
  split <;> rfl

theorem keepsBound_readCountersCmd : keepsBound readCountersCmd :=
  keepsBound_of_ledger fun args s => by cases args <;> rfl

theorem keepsBound_unknownCmd : keepsBound unknownCmd :=
  keepsBound_of_ledger fun _ _ => rfl

/-! ### Commands on the table (R7, R9 to R11, R13) -/

theorem grantsBounded_requestPass {s : State} (h : grantsBounded s) : grantsBounded (requestPass s) :=
  grantsBounded_of_ledger (ledger_requestPass s) h

theorem grantsBounded_requestPassIf (c : Bool) {s : State} (h : grantsBounded s) : grantsBounded (requestPassIf c s) :=
  grantsBounded_of_ledger (ledger_requestPassIf c s) h

/-- RESERVE creates a PENDING record (R7). -/
theorem keepsBound_reserveCmd : keepsBound reserveCmd := by
  intro args s h
  unfold reserveCmd
  split
  · exact h
  · split
    · exact h
    · have hstamp : grantsBounded (takeArrivalStamp s) := h
      exact grantsBounded_requestPass (grantsBounded_putRecord_of_ne hstamp (by simp [newRecord]))

/-- The record of a handle that passes its checks stands in its slot (R5). -/
theorem recordOf_of_checkHandle {h : HandleArgs} {s : State} {k : Fin 24} {r : Record} (hc : checkHandle h s = .ok (k, r)) :
    recordOf s k = some r := by
  unfold checkHandle at hc
  split at hc
  · split at hc
    · cases hc
    · split at hc
      · cases hc
      · next q hq =>
        split at hc
        · cases hc
        · split at hc
          · cases hc
          · cases hc
            exact hq
  · cases hc

/-- An ADJUST lowers a GRANTED record's draw, or leaves it and asks for more as a pending draw (R9). -/
theorem Record.adjust_grant_le (d : Nat) (r : Record) :
    (r.adjust d).st = .granted → r.st = .granted ∧ (r.adjust d).draw ≤ r.draw := by
  unfold Record.adjust
  split
  · next hst =>
    split
    · next hlt => exact fun _ => ⟨hst, hlt.le⟩
    · split <;> exact fun _ => ⟨hst, Nat.le_refl _⟩
  · next hst => exact fun h => absurd h hst

theorem keepsBound_adjustCmd : keepsBound adjustCmd := by
  intro args s h
  unfold adjustCmd
  split
  · exact h
  · next d _ =>
    split
    · exact h
    · next k r hc =>
      split
      · exact grantsBounded_requestPass
          (grantsBounded_putRecord h (recordOf_of_checkHandle hc) (Record.adjust_grant_le d r))
      · exact h

/-- A RENEW touches timers alone (R10). -/
theorem Record.renew_frame (r : Record) : r.renew.st = r.st ∧ r.renew.draw = r.draw := by
  unfold Record.renew
  split
  · split <;> exact ⟨rfl, rfl⟩
  · exact ⟨rfl, rfl⟩
  · exact ⟨rfl, rfl⟩
  · exact ⟨rfl, rfl⟩

theorem keepsBound_renewCmd : keepsBound renewCmd := by
  intro args s h
  unfold renewCmd
  split
  · exact h
  · split
    · exact h
    · next k r hc =>
      obtain ⟨hst, hdraw⟩ := r.renew_frame
      split
      · exact grantsBounded_putRecord h (recordOf_of_checkHandle hc) fun hg => ⟨hst ▸ hg, hdraw.le⟩
      · exact h

theorem keepsBound_releaseCmd : keepsBound releaseCmd := by
  intro args s h
  unfold releaseCmd
  split
  · exact h
  · split
    · exact h
    · next k r _ => exact grantsBounded_requestPassIf r.live (grantsBounded_freeSlot k h)

theorem grantsBounded_clearMark {k : Fin 24} {s : State} (h : grantsBounded s) : grantsBounded (clearMark k s) := by
  unfold clearMark
  split
  · exact h
  · next r hr => exact grantsBounded_putRecord h hr fun hg => ⟨hg, Nat.le_refl _⟩

theorem keepsBound_collectCmd : keepsBound collectCmd := by
  intro args s h
  unfold collectCmd
  split
  · dsimp only
    induction (markedSlots s).take 8 generalizing s with
    | nil => exact h
    | cons k ks ih => exact ih _ (grantsBounded_clearMark h)
  · exact h

/-! ### Resets (R27, R31, R154) -/

theorem grantsBounded_powerOnReset (s : State) : grantsBounded (powerOnReset s) :=
  grantsBounded_of_no_grant (no_grant_of_reset rfl)

/-- A control reset empties the table, and no later part of it puts a record there (R27, R154). -/
theorem controlReset_resv (s : State) : (controlReset s).resv = Table.reset := by
  have hledger : ledger (controlReset s) =
      ledger (resetTable (resetConditions (resetLimits (discardFrame s)))) := by
    simp [controlReset, resetBlocks, resetCells]
  exact congrArg Prod.fst hledger

theorem grantsBounded_controlReset (s : State) : grantsBounded (controlReset s) :=
  grantsBounded_of_no_grant (no_grant_of_reset (controlReset_resv s))

theorem grantsBounded_rstnFall {s : State} (h : grantsBounded s) : grantsBounded (rstnFall s) := by
  unfold rstnFall
  split
  · exact h
  · exact grantsBounded_controlReset _

/-! ### Frames (R155 to R157) -/

/-- A command carried out answers and restarts the silence timer, beside what it does itself. -/
theorem grantsBounded_runCommand {cmd : List Byte → State → Result} (hcmd : keepsBound cmd) (args : List Byte) {s : State}
    (h : grantsBounded s) : grantsBounded (runCommand cmd args s) :=
  grantsBounded_of_ledger (by simp [runCommand]) (hcmd args s h)

theorem grantsBounded_runReset (args : List Byte) {s : State} (h : grantsBounded s) : grantsBounded (runReset args s) := by
  cases args with
  | nil => exact grantsBounded_of_ledger rfl (grantsBounded_controlReset s)
  | cons b bs => exact grantsBounded_of_ledger rfl h

/-- The commands of R172 but RESET, and the one of a code that names none. -/
def hostCommandMeanings : List (List Byte → State → Result) :=
  [nopCmd, reserveCmd, adjustCmd, renewCmd, releaseCmd, queryCmd, collectCmd, readBudgetCmd, readCellCmd, readInputCmd, offersCmd,
    appliedCmd, isolateCmd, isolateCellCmd, clearFaultCmd, setLimitCmd, getLimitCmd, lockLimitsCmd, readConditionsCmd, setMasksCmd,
    readCountersCmd, unknownCmd]

theorem keepsBound_of_mem {cmd : List Byte → State → Result} (h : cmd ∈ hostCommandMeanings) : keepsBound cmd := by
  revert cmd
  simp only [hostCommandMeanings, List.forall_mem_cons, List.not_mem_nil, false_imp_iff, implies_true, and_true]
  exact ⟨keepsBound_nopCmd, keepsBound_reserveCmd, keepsBound_adjustCmd, keepsBound_renewCmd, keepsBound_releaseCmd,
    keepsBound_queryCmd, keepsBound_collectCmd, keepsBound_readBudgetCmd, keepsBound_readCellCmd, keepsBound_readInputCmd,
    keepsBound_offersCmd, keepsBound_appliedCmd, keepsBound_isolateCmd, keepsBound_isolateCellCmd, keepsBound_clearFaultCmd,
    keepsBound_setLimitCmd, keepsBound_getLimitCmd, keepsBound_lockLimitsCmd, keepsBound_readConditionsCmd,
    keepsBound_setMasksCmd, keepsBound_readCountersCmd, keepsBound_unknownCmd⟩

/-- The code of a well-formed frame runs RESET or one of the other meanings (R172). -/
theorem runCode_cases (code : Byte) (args : List Byte) (s : State) :
    runCode code args s = runReset args s ∨ ∃ cmd ∈ hostCommandMeanings, runCode code args s = runCommand cmd args s := by
  unfold runCode
  split
  case h_22 => exact .inl rfl
  all_goals exact .inr ⟨_, by simp [hostCommandMeanings], rfl⟩

theorem grantsBounded_runCode (code : Byte) (args : List Byte) {s : State} (h : grantsBounded s) :
    grantsBounded (runCode code args s) := by
  rcases runCode_cases code args s with heq | ⟨cmd, hmem, heq⟩
  · exact heq ▸ grantsBounded_runReset args h
  · exact heq ▸ grantsBounded_runCommand (keepsBound_of_mem hmem) args h

theorem grantsBounded_takeFrame (bs : List Byte) {s : State} (h : grantsBounded s) : grantsBounded (takeFrame bs s) := by
  unfold takeFrame
  split
  · exact grantsBounded_of_ledger (ledger_erredFrame _ s) h
  · exact grantsBounded_runCode _ _ h

/-- A rise of LSEL keeps the bound where what is done with its frame does. -/
theorem grantsBounded_lselRiseWith {take : State → State} (htake : ∀ u, grantsBounded u → grantsBounded (take u)) {s : State}
    (h : grantsBounded s) : grantsBounded (lselRiseWith take s) := by
  have hline (u : State) (hu : ledger u = ledger s) : grantsBounded u := grantsBounded_of_ledger hu h
  unfold lselRiseWith
  split
  · exact h
  · dsimp only
    split
    · exact hline _ rfl
    · split
      · exact hline _ rfl
      · exact htake _ (hline _ rfl)
      · exact hline _ rfl

/-- The row of a command is a whole frame: a fall, and the rise that takes it (R155, R156). -/
theorem grantsBounded_commandFrame {run : List Byte → State → State} {args : List Byte}
    (hrun : ∀ u, grantsBounded u → grantsBounded (run args u)) {s : State} (h : grantsBounded s) :
    grantsBounded (commandFrame run args s) := by
  refine grantsBounded_lselRiseWith (fun u hu => ?_) (grantsBounded_of_ledger (ledger_lselFall s) h)
  split
  · exact hrun u hu
  · exact grantsBounded_of_ledger (ledger_erredFrame _ u) hu

/-! ### Ends of records (R19 to R24) and a millisecond -/

theorem Record.finish_st (k : Fin 24) (c : EndCause) (r : Record) : (r.finish k c).st = .ended c := rfl

theorem grantsBounded_endRecord {k : Fin 24} {c : EndCause} {s : State} (h : grantsBounded s) :
    grantsBounded (endRecord k c s) := by
  unfold endRecord
  split
  · exact h
  · next r _ =>
    split
    · exact grantsBounded_requestPassIf _ (grantsBounded_putRecord_of_ne h (by simp [Record.finish_st]))
    · exact h

theorem grantsBounded_expireWhere {due : Record → Bool} {k : Fin 24} {c : EndCause} {s : State} (h : grantsBounded s) :
    grantsBounded (expireWhere due k c s) := by
  rcases expireWhere_cases due k c s with ⟨r, -, -, heq⟩ | heq
  · exact heq ▸ grantsBounded_endRecord h
  · exact heq.symm ▸ h

theorem grantsBounded_silenceRelease {s : State} (h : grantsBounded s) : grantsBounded (silenceRelease s) := by
  have hpub : (silenceRelease s).budget.pub = s.budget.pub := by
    rw [budget_silenceRelease]
    split <;> rfl
  refine grantsBounded_of_grantsFall h (grantsFall_of_map (recordOf_silenceRelease s) fun k r => ?_) hpub
  split
  · intro hst
    cases hst
  · exact fun hst => ⟨hst, Nat.le_refl _⟩

theorem grantsBounded_silenceExpiry {s : State} (h : grantsBounded s) : grantsBounded (silenceExpiry s) := by
  by_cases hend : s.link.silence = some 0
  · rw [silenceExpiry_of_end hend]
    exact grantsBounded_silenceRelease (s := stopSilence s) h
  · rwa [silenceExpiry_of_not_end hend]

/-- A millisecond moves a record's timers alone (R19 to R22). -/
theorem Record.tick_frame (r : Record) : r.tick.st = r.st ∧ r.tick.draw = r.draw := by
  unfold Record.tick
  split <;> exact ⟨rfl, rfl⟩

theorem recordOf_advance (s : State) (k : Fin 24) : recordOf (advance s) k = (recordOf s k).map Record.tick := by
  simp [recordOf, slotOf, advance, Table.tick]

theorem grantsBounded_advance {s : State} (h : grantsBounded s) : grantsBounded (advance s) := by
  refine grantsBounded_of_grantsFall h (grantsFall_of_map (recordOf_advance s) fun k r hst => ?_) rfl
  obtain ⟨hkeep, hdraw⟩ := r.tick_frame
  exact ⟨hkeep ▸ hst, hdraw.le⟩

/-! ### Every row and every step -/

theorem grantsBounded_passTimerExpiry {s : State} (ht : tableOk s) (h : grantsBounded s) : grantsBounded (passTimerExpiry s) := by
  unfold passTimerExpiry
  split
  · exact grantsBounded_budgetPass ht
  · exact h

theorem grantsBounded_requestDelayExpiry {s : State} (ht : tableOk s) (h : grantsBounded s) :
    grantsBounded (requestDelayExpiry s) := by
  unfold requestDelayExpiry
  split
  · exact grantsBounded_budgetPass ht
  · exact h

/-- Every row keeps the bound of R44: a pass sets it anew, a reset empties the table, a command or an end on the table grants
nothing, and every other row leaves the ledger alone. -/
theorem grantsBounded_of_exec {i : Instr} {s t : State} (ht : tableOk s) (h : grantsBounded s) (he : exec i s = .next t) :
    grantsBounded t := by
  cases i with
  | passTimerExpiry => cases he; exact grantsBounded_passTimerExpiry ht h
  | requestDelayExpiry => cases he; exact grantsBounded_requestDelayExpiry ht h
  | powerOnReset => cases he; exact grantsBounded_powerOnReset s
  | rstnLow => cases he; exact grantsBounded_rstnFall h
  | reset args => cases he; exact grantsBounded_commandFrame (fun _ => grantsBounded_runReset args) h
  | lselRise bits => cases he; exact grantsBounded_lselRiseWith (fun _ => grantsBounded_takeFrame _) h
  | nop args | reserve args | adjust args | renew args | release args | query args | collect args | readBudget args
  | readCell args | readInput args | offers args | applied args | isolate args | isolateCell args | clearFault args
  | setLimit args | getLimit args | lockLimits args | readConditions args | setMasks args | readCounters args =>
    cases he
    exact grantsBounded_commandFrame
      (fun _ => grantsBounded_runCommand (keepsBound_of_mem (by simp [hostCommandMeanings])) args) h
  | silenceTimerExpiry => cases he; exact grantsBounded_silenceExpiry h
  | lifetimeExpiry k | burstExpiry k | burstTotalExpiry k | waitLimitExpiry k => cases he; exact grantsBounded_expireWhere h
  | _ =>
    cases he
    exact grantsBounded_of_ledger (by simp) h

/-- A step runs a row, on some queue, or lets a millisecond pass. -/
theorem step_cases {s t : State} (h : step s = .next t) :
    (∃ i q, exec i { s with pending := q } = .next t) ∨ t = advance s := by
  unfold step at h
  split at h
  · exact .inl ⟨_, _, h⟩
  · split at h
    · exact .inl ⟨_, s.pending, h⟩
    · cases h
      exact .inr rfl

/-- Settles O6: every row keeps the bound, and so does a millisecond; a row reads the table and the figures on whatever queue. -/
theorem stepKeepsGrantsWithinCapability : Obligations.StepKeepsGrantsWithinCapability := by
  intro s t _ ht h hstep
  rcases step_cases hstep with ⟨i, q, he⟩ | rfl
  · exact grantsBounded_of_exec (s := { s with pending := q }) ht h he
  · exact grantsBounded_advance h

end Sys2Proof.Machine
end

section
/-! The split of an amount between two caps: the three ways it can go, and the statement they settle (R56). -/

namespace Sys2Proof.Machine

section
variable {P share capA capB : Nat}

/-- The first division of an amount leaves cell A no more than all of it (R56, step 1). -/
theorem firstDivision_le (hs : share ≤ 1024) : P * share / 1024 ≤ P :=
  Nat.div_le_of_le_mul (by rw [Nat.mul_comm]; exact Nat.mul_le_mul_right P hs)

/-- Both shares stand where the first division fits the caps (R56). -/
theorem splitAmount_of_fits (hs : share ≤ 1024) (hA : P * share / 1024 ≤ capA) (hB : P - P * share / 1024 ≤ capB) :
    splitAmount P share capA capB = ⟨P * share / 1024, P - P * share / 1024, 0⟩ := by
  have hle := firstDivision_le (P := P) hs
  simp only [splitAmount, Split.mk.injEq]
  omega

/-- Cell A's overflow leaves A at its cap and goes to B as far as B's cap (R56, steps 2 and 3). -/
theorem splitAmount_of_overflowA (hs : share ≤ 1024) (hA : capA < P * share / 1024) :
    splitAmount P share capA capB = ⟨capA, min (P - capA) capB, P - capA - capB⟩ := by
  have hle := firstDivision_le (P := P) hs
  simp only [splitAmount, Split.mk.injEq]
  omega

/-- Cell B's overflow leaves B at its cap and goes back to A as far as A's cap (R56, steps 3 and 4). -/
theorem splitAmount_of_overflowB (hA : P * share / 1024 ≤ capA) (hB : capB < P - P * share / 1024) :
    splitAmount P share capA capB = ⟨min capA (P - capB), capB, P - capA - capB⟩ := by
  simp only [splitAmount, Split.mk.injEq]
  omega

end

/-- No share of a split passes its cap, whatever the share (R56). -/
theorem splitAmount_le_caps (P share capA capB : Nat) :
    (splitAmount P share capA capB).pA ≤ capA ∧ (splitAmount P share capA capB).pB ≤ capB :=
  ⟨Nat.min_le_right _ _, Nat.min_le_right _ _⟩

/-- Settles O33: the first division fits both caps, passes A's, or passes B's; each case gives both shares and the remainder. -/
theorem splitFillsTheCaps : Obligations.SplitFillsTheCaps := by
  intro P share capA capB hs
  have hle := firstDivision_le (P := P) hs
  have hall : share = 1024 → P * share / 1024 = P := by
    rintro rfl
    exact Nat.mul_div_cancel P (by decide)
  have hnone : share = 0 → P * share / 1024 = 0 := by
    rintro rfl
    simp
  by_cases hA : capA < P * share / 1024
  · rw [splitAmount_of_overflowA hs hA]
    dsimp only
    omega
  · by_cases hB : capB < P - P * share / 1024
    · rw [splitAmount_of_overflowB (by omega) hB]
      dsimp only
      omega
    · rw [splitAmount_of_fits hs (by omega) (by omega)]
      dsimp only
      omega

end Sys2Proof.Machine
end

section
/-! The commands a pass hands on: each cell's power stays within the allowance or the cap it is drawn from, its current within the
limit that gave the allowance or the cap, and the checks of R61 stand on the state the pass leaves (R36, R54 to R62). -/

namespace Sys2Proof.Machine

/-! ### From a power to a current (R36, R58 to R60) -/

/-- A power within what a current gives at a voltage draws no more than that current there. -/
theorem current_le_of_power_le {p v i : Nat} (h : p ≤ v * i / 1000) : p * 1000 / v ≤ i := by
  refine Nat.div_le_of_le_mul ?_
  calc p * 1000 ≤ v * i / 1000 * 1000 := Nat.mul_le_mul_right 1000 h
    _ ≤ v * i := Nat.div_mul_le_self _ _

theorem flexLoss_mono {i j : Nat} (rh : Nat) (h : i ≤ j) : flexLoss i rh ≤ flexLoss j rh :=
  Nat.div_le_div_right (Nat.mul_le_mul_right rh (Nat.mul_le_mul h h))

theorem flexLoss_zero (rh : Nat) : flexLoss 0 rh = 0 := by simp [flexLoss]

/-- Cell B's discharge with the flex loss added stays within its allowance before the loss at its limit was taken off (R36, R59). -/
theorem power_add_flexLoss_le {p v i rh : Nat} (h : p ≤ v * i / 1000 - flexLoss i rh) :
    p + flexLoss (p * 1000 / v) rh ≤ v * i / 1000 := by
  rcases Nat.eq_zero_or_pos p with rfl | hp
  · simp [flexLoss_zero]
  · have hloss := flexLoss_mono rh (current_le_of_power_le (h.trans (Nat.sub_le _ _)))
    omega

/-- A current lies within a discharge limit and a charge ceiling (R62). -/
def withinLimits (dis chg : Nat) (c : Int) : Prop := -(dis : Int) ≤ c ∧ c ≤ (chg : Int)

/-- A charge within the ceiling. -/
theorem withinLimits_charge (dis : Nat) {chg i : Nat} (h : i ≤ chg) : withinLimits dis chg i := ⟨by omega, by omega⟩

/-- A discharge within the limit. -/
theorem withinLimits_discharge {dis i : Nat} (chg : Nat) (h : i ≤ dis) : withinLimits dis chg (-(i : Int)) :=
  ⟨by omega, by omega⟩

theorem withinLimits_zero (dis chg : Nat) : withinLimits dis chg 0 := withinLimits_charge dis (Nat.zero_le chg)

/-- Cell A's command stays within the limits whose powers bound its net power (R58). -/
theorem withinLimits_commandA {net : Int} {v dis chg : Nat} (hdis : -net ≤ (v * dis / 1000 : Nat))
    (hchg : net ≤ (v * chg / 1000 : Nat)) : withinLimits dis chg (commandA net v) := by
  unfold commandA
  split
  · exact withinLimits_zero dis chg
  · obtain ⟨p, rfl | rfl⟩ := net.eq_nat_or_neg
    · have hp : p * 1000 / v ≤ chg := current_le_of_power_le (by omega)
      exact withinLimits_charge dis hp
    · have hp : p * 1000 / v ≤ dis := current_le_of_power_le (by omega)
      rw [Int.neg_mul, Int.neg_tdiv]
      exact withinLimits_discharge chg hp

/-- Cell B's command stays within the limits whose powers bound its net power, the flex loss at the discharge limit taken off (R36,
R59, R60). -/
theorem withinLimits_commandB {net : Int} {v dis chg rh : Nat} (hdis : -net ≤ (v * dis / 1000 - flexLoss dis rh : Nat))
    (hchg : net ≤ (v * chg / 1000 : Nat)) : withinLimits dis chg (commandB net v rh) := by
  unfold commandB
  split
  · exact withinLimits_zero dis chg
  · dsimp only
    split
    · have hp := current_le_of_power_le (power_add_flexLoss_le (p := net.natAbs) (v := v) (i := dis) (rh := rh) (by omega))
      exact withinLimits_discharge chg hp
    · have hp : (net.natAbs - flexLoss (net.natAbs * 1000 / v) rh) * 1000 / v ≤ chg :=
        current_le_of_power_le ((Nat.sub_le _ _).trans (by omega))
      exact withinLimits_charge dis hp

/-! ### The checks on a command (R61) -/

theorem forbids_zero (b : BranchState) : b.forbids 0 = false := by cases b <;> rfl

/-- A checked command is 0 or the command itself. -/
theorem checkCommand_cases (s : State) (x : Cell) (low : Bool) (c : Int) :
    checkCommand s x low c = 0 ∨ checkCommand s x low c = c := by
  unfold checkCommand
  split
  · exact .inl rfl
  · split
    · exact .inl rfl
    · split
      · exact .inl rfl
      · exact .inr rfl

theorem checkCommand_not_forbidden (s : State) (x : Cell) (low : Bool) (c : Int) :
    (branchState s x).forbids (checkCommand s x low c) = false := by
  by_cases h : (branchState s x).forbids c = true
  · simp [checkCommand, h, forbids_zero]
  · rcases checkCommand_cases s x low c with h0 | hc
    · rw [h0, forbids_zero]
    · rw [hc]
      exact eq_false_of_ne_true h

/-- A cell whose data state holds charge is not charged. -/
theorem checkCommand_nonpos_of_holds {s : State} {x : Cell} (low : Bool) (c : Int) (h : (dataStateOf s x).holds = true) :
    checkCommand s x low c ≤ 0 := by
  by_cases hc : 0 < c
  · simp [checkCommand, h, hc]
  · rcases checkCommand_cases s x low c with h0 | he
    · exact h0.le
    · omega

/-- What the checks of R61 make of some command within the limits. -/
def checkedWithin (s : State) (x : Cell) (dis chg : Nat) (c : Int) : Prop :=
  ∃ low raw, withinLimits dis chg raw ∧ c = checkCommand s x low raw

theorem withinLimits_of_checkedWithin {s : State} {x : Cell} {dis chg : Nat} {c : Int} (h : checkedWithin s x dis chg c) :
    withinLimits dis chg c := by
  obtain ⟨low, raw, hraw, rfl⟩ := h
  rcases checkCommand_cases s x low raw with h0 | hc
  · rw [h0]
    exact withinLimits_zero dis chg
  · rwa [hc]

theorem not_forbidden_of_checkedWithin {s : State} {x : Cell} {dis chg : Nat} {c : Int} (h : checkedWithin s x dis chg c) :
    (branchState s x).forbids c = false := by
  obtain ⟨low, raw, -, rfl⟩ := h
  exact checkCommand_not_forbidden s x low raw

theorem nonpos_of_checkedWithin {s : State} {x : Cell} {dis chg : Nat} {c : Int} (h : checkedWithin s x dis chg c)
    (hh : (dataStateOf s x).holds = true) : c ≤ 0 := by
  obtain ⟨low, raw, -, rfl⟩ := h
  exact checkCommand_nonpos_of_holds low raw hh

/-! ### The split stage (R54 to R61, R67, R68) -/

/-- The discharge allowances are what the voltages and the discharge limits of the same capability give (R35, R36). -/
def allowancesOk (c : Capability) : Prop :=
  c.dA = c.volt.a * c.disLim.a / 1000 ∧ c.dBn = c.volt.b * c.disLim.b / 1000 - flexLoss c.disLim.b c.rh

theorem allowancesOk_capability (s : State) : allowancesOk (capability s) := ⟨rfl, rfl⟩

/-- Both commands of a split have passed the checks on the state it leaves, within the limits that it and the capability read. -/
def ordersOk (c : Capability) (o : SplitOut) : Prop :=
  checkedWithin o.st .A c.disLim.a o.chgCeil.a o.cmdA ∧ checkedWithin o.st .B c.disLim.b o.chgCeil.b o.cmdB

theorem chargeCap_le (s : State) (x : Cell) (v ceil : Nat) : chargeCap s x v ceil ≤ v * ceil / 1000 := by
  unfold chargeCap
  split
  · exact Nat.zero_le _
  · exact Nat.le_refl _

theorem receivedPower_le (etaEq e cap : Nat) : receivedPower etaEq e cap ≤ cap := Nat.min_le_right _ _

section
variable {c : Capability} (h : allowancesOk c)
include h

/-- Cell A's checked command, from a net power between its allowance and its charge cap. -/
theorem checkedWithin_commandA {s : State} {net : Int} {chg : Nat} (low : Bool) (hdis : -net ≤ c.dA)
    (hchg : net ≤ (c.volt.a * chg / 1000 : Nat)) :
    checkedWithin s .A c.disLim.a chg (checkCommand s .A low (commandA net c.volt.a)) :=
  ⟨low, _, withinLimits_commandA (h.1 ▸ hdis) hchg, rfl⟩

/-- Cell B's checked command, from a net power between its allowance and its charge cap. -/
theorem checkedWithin_commandB {s : State} {net : Int} {chg : Nat} (low : Bool) (hdis : -net ≤ c.dBn)
    (hchg : net ≤ (c.volt.b * chg / 1000 : Nat)) :
    checkedWithin s .B c.disLim.b chg (checkCommand s .B low (commandB net c.volt.b c.rh)) :=
  ⟨low, _, withinLimits_commandB (h.2 ▸ hdis) hchg, rfl⟩

/-- A discharge split between the two allowances. -/
theorem ordersOk_stoppedSplit (N : Int) (s : State) : ordersOk c (stoppedSplit c N s) := by
  obtain ⟨hA, hB⟩ := splitAmount_le_caps N.natAbs (shareA s false) c.dA c.dBn
  exact ⟨checkedWithin_commandA h _ (by omega) (by omega), checkedWithin_commandB h _ (by omega) (by omega)⟩

theorem ordersOk_plainSplit (N : Int) (s : State) : ordersOk c (plainSplit c N s) := by
  unfold plainSplit
  split
  · obtain ⟨hA, hB⟩ := splitAmount_le_caps N.toNat (shareA s true) (chargeCap s .A c.volt.a (chgCeiling s .A))
      (chargeCap s .B c.volt.b (chgCeiling s .B))
    have hcapA := chargeCap_le s .A c.volt.a (chgCeiling s .A)
    have hcapB := chargeCap_le s .B c.volt.b (chgCeiling s .B)
    exact ⟨checkedWithin_commandA h _ (by omega) (by dsimp only; omega),
      checkedWithin_commandB h _ (by omega) (by dsimp only; omega)⟩
  · exact ordersOk_stoppedSplit h N s

/-- A transfer: the source cell carries the draw beside its share, the low cell receives power up to its charge cap (R67, R68). -/
theorem ordersOk_transferSplit (N : Int) {e : Nat} {d : Dir} (he : e ≤ sourceCap c d) (s : State) :
    ordersOk c (transferSplit c N e d s) := by
  unfold transferSplit
  cases d with
  | aToB =>
    change e ≤ c.dA at he
    obtain ⟨hA, hB⟩ := splitAmount_le_caps N.natAbs (shareA s false) (c.dA - e) c.dBn
    have hgot := receivedPower_le s.lim.etaEq e (chargeCap s .B c.volt.b (equalizingCeiling s .B))
    have hcap := chargeCap_le s .B c.volt.b (equalizingCeiling s .B)
    exact ⟨checkedWithin_commandA h _ (by omega) (by omega), checkedWithin_commandB h _ (by omega) (by dsimp only; omega)⟩
  | bToA =>
    change e ≤ c.dBn at he
    obtain ⟨hA, hB⟩ := splitAmount_le_caps N.natAbs (shareA s false) c.dA (c.dBn - e)
    have hgot := receivedPower_le s.lim.etaEq e (chargeCap s .A c.volt.a (equalizingCeiling s .A))
    have hcap := chargeCap_le s .A c.volt.a (equalizingCeiling s .A)
    exact ⟨checkedWithin_commandA h _ (by omega) (by dsimp only; omega), checkedWithin_commandB h _ (by omega) (by omega)⟩

theorem ordersOk_splitStage (u : Nat) (s : State) : ordersOk c (splitStage c u s) := by
  unfold splitStage
  dsimp only
  split
  · exact ordersOk_plainSplit h _ s
  · split
    · exact ordersOk_stoppedSplit h _ _
    · next he => exact ordersOk_transferSplit h _ (Nat.le_of_not_lt he) s

end

/-! ### The pass (R48, R61, R62) -/

theorem commandOk_iff (s : State) (x : Cell) :
    commandOk s x = true ↔ withinLimits (s.budget.pub.disLim.get x) (s.budget.pub.chgCeil.get x) (s.budget.cmd.get x) ∧
      (branchState s x).forbids (s.budget.cmd.get x) = false := by
  simp [commandOk, withinLimits]

theorem commandsOk_iff (s : State) : commandsOk s = true ↔ ∀ x, commandOk s x = true := by
  rw [commandsOk, Bool.and_eq_true]
  exact ⟨fun ⟨ha, hb⟩ x => by cases x <;> assumption, fun h => ⟨h .A, h .B⟩⟩

theorem heldCellNotCharged_iff (s : State) :
    heldCellNotCharged s = true ↔ (s.hinge.dataState.holds = true → s.budget.cmd.get .B ≤ 0) := by
  cases hd : s.hinge.dataState.holds <;> simp [heldCellNotCharged, hd]

/-- Publishing puts checked commands in force together with the limits they were worked from. -/
theorem commandsOk_publishStage {c : Capability} {o : SplitOut} (h : ordersOk c o) (u sh gr : Nat) :
    commandsOk (publishStage c u sh gr o) = true := by
  obtain ⟨hA, hB⟩ := h
  rw [commandsOk_iff]
  intro x
  rw [commandOk_iff]
  cases x with
  | A => exact ⟨withinLimits_of_checkedWithin hA, not_forbidden_of_checkedWithin hA⟩
  | B => exact ⟨withinLimits_of_checkedWithin hB, not_forbidden_of_checkedWithin hB⟩

theorem heldCellNotCharged_publishStage {c : Capability} {o : SplitOut} (h : ordersOk c o) (u sh gr : Nat) :
    heldCellNotCharged (publishStage c u sh gr o) = true := by
  rw [heldCellNotCharged_iff]
  exact nonpos_of_checkedWithin h.2

theorem ordersOk_budgetPass (s : State) : ∃ c u sh gr o, ordersOk c o ∧ budgetPass s = publishStage c u sh gr o :=
  ⟨_, _, _, _, _, ordersOk_splitStage (allowancesOk_capability (droopStep s)) _ _, rfl⟩

/-- A pass leaves both invariants, whatever stood before it. -/
theorem commandsOk_budgetPass (s : State) : commandsOk (budgetPass s) = true ∧ heldCellNotCharged (budgetPass s) = true := by
  obtain ⟨c, u, sh, gr, o, ho, heq⟩ := ordersOk_budgetPass s
  rw [heq]
  exact ⟨commandsOk_publishStage ho u sh gr, heldCellNotCharged_publishStage ho u sh gr⟩

end Sys2Proof.Machine
end

section
/-! What R61 and R62 read of a state, and what every block but the pass does to it: most updates leave it alone; a change of a branch
sets a forbidden command to 0, and entry to STALE cell B's charge command. -/

namespace Sys2Proof.Machine

/-! ### The orders of a state and the updates that keep both invariants -/

/-- What R61 and R62 read: the commands in force, the published figures, the branch states and cell B's data state. -/
def orders (s : State) : PerCell Int × Published × (Cell → BranchState) × DataState :=
  (s.budget.cmd, s.budget.pub, branchState s, s.hinge.dataState)

/-- An update after which each of the two invariants stands if it stood before. -/
def keepsCommands (s t : State) : Prop :=
  (commandsOk s = true → commandsOk t = true) ∧ (heldCellNotCharged s = true → heldCellNotCharged t = true)

theorem keepsCommands_refl (s : State) : keepsCommands s s := ⟨id, id⟩

theorem keepsCommands_trans {s t u : State} (h : keepsCommands s t) (g : keepsCommands t u) : keepsCommands s u :=
  ⟨g.1 ∘ h.1, g.2 ∘ h.2⟩

theorem keepsCommands_of_ok {s t : State} (h : commandsOk t = true ∧ heldCellNotCharged t = true) : keepsCommands s t :=
  ⟨fun _ => h.1, fun _ => h.2⟩

/-- An update keeps both invariants if it leaves the published figures alone, sets commands to 0 at most, leaves no command that a
branch state it changes forbids, and no charge command of cell B where it brings its data state to one that holds charge. -/
theorem keepsCommands_of_zeroing {s t : State} (hpub : t.budget.pub = s.budget.pub)
    (hcmd : ∀ x, t.budget.cmd.get x = s.budget.cmd.get x ∨ t.budget.cmd.get x = 0)
    (hbr : ∀ x, branchState t x = branchState s x ∨ (branchState t x).forbids (t.budget.cmd.get x) = false)
    (hdata : t.hinge.dataState.holds = true → s.hinge.dataState.holds = true ∨ t.budget.cmd.get .B ≤ 0) :
    keepsCommands s t := by
  constructor
  · simp only [commandsOk_iff, commandOk_iff, hpub]
    intro h x
    obtain ⟨hlim, hforb⟩ := h x
    rcases hcmd x with hc | hc
    · refine ⟨hc ▸ hlim, ?_⟩
      rcases hbr x with hb | hb
      · rwa [hb, hc]
      · exact hb
    · rw [hc]
      exact ⟨withinLimits_zero _ _, forbids_zero _⟩
  · simp only [heldCellNotCharged_iff]
    intro h ht
    rcases hdata ht with hs | hle
    · rcases hcmd .B with hc | hc
      · exact hc ▸ h hs
      · exact hc.le
    · exact hle

theorem keepsCommands_of_orders {s t : State} (h : orders t = orders s) : keepsCommands s t := by
  simp only [orders, Prod.mk.injEq] at h
  obtain ⟨hcmd, hpub, hbr, hdata⟩ := h
  exact keepsCommands_of_zeroing hpub (fun x => .inl (by rw [hcmd])) (fun x => .inl (by rw [hbr])) (fun h => .inl (hdata ▸ h))

/-- An update that acts only where a condition holds. -/
theorem keepsCommands_ite {p : Prop} [Decidable p] {s t : State} (h : p → keepsCommands s t) :
    keepsCommands s (if p then t else s) := by
  split
  · next hp => exact h hp
  · exact keepsCommands_refl s

/-- An update beside the orders may follow. -/
theorem keepsCommands_congr {s t u : State} (h : keepsCommands s t) (ho : orders u = orders t) : keepsCommands s u :=
  keepsCommands_trans h (keepsCommands_of_orders ho)

/-! ### Shared updates -/

@[simp] theorem orders_latch (c : Condition) (s : State) : orders (latch c s) = orders s := rfl
@[simp] theorem orders_count (i : CounterId) (s : State) : orders (count i s) = orders s := rfl
@[simp] theorem orders_placeAnswer (o : Outc) (p : List Byte) (s : State) : orders (placeAnswer o p s) = orders s := rfl
@[simp] theorem orders_putRecord (k : Fin 24) (r : Record) (s : State) : orders (putRecord k r s) = orders s := rfl
@[simp] theorem orders_freeSlot (k : Fin 24) (s : State) : orders (freeSlot k s) = orders s := rfl
@[simp] theorem orders_takeArrivalStamp (s : State) : orders (takeArrivalStamp s) = orders s := rfl
@[simp] theorem orders_putCharge (x : Cell) (c : Charge) (s : State) : orders (putCharge x c s) = orders s := rfl
@[simp] theorem orders_putLoad (l : Load) (s : State) : orders (putLoad l s) = orders s := rfl
@[simp] theorem orders_putMonitor (x : Cell) (m : Monitor) (s : State) : orders (putMonitor x m s) = orders s := rfl
@[simp] theorem orders_putReading (x : Cell) (r : Reading) (s : State) : orders (putReading x r s) = orders s := rfl
@[simp] theorem orders_withRequest (s : State) : orders (withRequest s) = orders s := rfl
@[simp] theorem orders_withCount (x : Cell) (n : Nat) (s : State) : orders (withCount x n s) = orders s := rfl

@[simp] theorem orders_requestPass (s : State) : orders (requestPass s) = orders s := by
  rw [requestPass_eq, orders_withRequest]

@[simp] theorem orders_requestPassIf (c : Bool) (s : State) : orders (requestPassIf c s) = orders s := by
  simp [requestPassIf, apply_ite orders]

theorem branchState_putBranch (x : Cell) (b : Branch) (s : State) : branchState (putBranch x b s) x = b.state := by
  simp [branchState]

theorem branchState_putBranch_of_ne {x y : Cell} (b : Branch) (s : State) (h : y ≠ x) :
    branchState (putBranch x b s) y = branchState s y := by
  simp [branchState, PerCell.get_set_of_ne _ _ h]

/-- New runs and causes behind the same branch state. -/
theorem orders_putBranch {x : Cell} {b : Branch} {s : State} (h : b.state = branchState s x) :
    orders (putBranch x b s) = orders s := by
  have hbr : branchState (putBranch x b s) = branchState s := by
    funext y
    by_cases hy : y = x
    · rw [hy, branchState_putBranch, h]
    · exact branchState_putBranch_of_ne b s hy
  simp only [orders, hbr]
  rfl

/-- A part of the hinge link controller beside its data state. -/
theorem orders_putHinge {h : Hinge} {s : State} (hd : h.dataState = s.hinge.dataState) : orders (putHinge h s) = orders s := by
  unfold orders
  rw [← hd]
  rfl

/-! ### Charge control (5) -/

@[simp] theorem orders_moveCharge (x : Cell) (c : Charge) (s : State) : orders (moveCharge x c s) = orders s := by
  simp [moveCharge]

@[simp] theorem orders_enterFull (x : Cell) (s : State) : orders (enterFull x s) = orders s := by
  simp [enterFull, anchorCount_eq]

@[simp] theorem orders_enterChgFault (x : Cell) (c : ChgFault) (s : State) : orders (enterChgFault x c s) = orders s := by
  simp [enterChgFault]

@[simp] theorem orders_phaseTests (x : Cell) (v : Nat) (i : Int) (s : State) : orders (phaseTests x v i s) = orders s := by
  unfold phaseTests
  split
  case h_1 => rfl
  case h_2 => simp [startTest, beginSession, apply_ite orders]
  case h_3 => simp [enterHold, prechargeTest, apply_ite orders]
  case h_4 => simp [enterHold, fastTest, apply_ite orders]
  case h_5 => simp [enterHold, taperTest, apply_ite orders]
  case h_6 => simp [resumeTest, apply_ite orders]
  case h_7 => simp [rechargeTest, beginSession, apply_ite orders]

@[simp] theorem orders_heldSlotTest (x : Cell) (s : State) : orders (heldSlotTest x s) = orders s := by
  unfold heldSlotTest
  split <;> simp [enterHold, apply_ite orders]

@[simp] theorem orders_chargeSlot (x : Cell) (accepted : Bool) (s : State) : orders (chargeSlot x accepted s) = orders s := by
  have evaluated (v : Nat) (i : Int) (u : State) : orders (evalAccepted x v i u) = orders u := by
    simp [evalAccepted, apply_ite orders]
  unfold chargeSlot
  split
  · rfl
  · simp [handTarget, evaluated, apply_ite orders]

@[simp] theorem orders_prechargeExpiry (x : Cell) (s : State) : orders (prechargeExpiry x s) = orders s := by
  simp [prechargeExpiry, apply_ite orders]

@[simp] theorem orders_fastExpiry (x : Cell) (s : State) : orders (fastExpiry x s) = orders s := by
  simp [fastExpiry, apply_ite orders]

@[simp] theorem orders_overvoltageRun (x : Cell) (s : State) : orders (overvoltageRun x s) = orders s := by
  simp [overvoltageRun, apply_ite orders]

@[simp] theorem orders_terminationRun (x : Cell) (s : State) : orders (terminationRun x s) = orders s := by
  simp [terminationRun, apply_ite orders]

@[simp] theorem orders_clearChgFault (x : Cell) (s : State) : orders (clearChgFault x s) = orders s := by
  simp [clearChgFault, enterOff, apply_ite orders]

@[simp] theorem orders_resetCharge (x : Cell) (s : State) : orders (resetCharge x s) = orders s :=
  orders_moveCharge x _ s

/-! ### Branch protection (6) -/

/-- A branch moved: a command that its new state forbids is set to 0 (R106). -/
theorem keepsCommands_moveBranch (x : Cell) (b : Branch) (s : State) : keepsCommands s (moveBranch x b s) := by
  by_cases hst : b.state = branchState s x
  · have heq : moveBranch x b s = putBranch x b s := if_pos hst
    rw [heq]
    exact keepsCommands_of_orders (orders_putBranch hst)
  · have heq : moveBranch x b s = requestPass (zeroForbidden x (putBranch x b s)) := if_neg hst
    rw [heq]
    refine keepsCommands_congr ?_ (orders_requestPass _)
    unfold zeroForbidden
    rw [branchState_putBranch]
    split
    · refine keepsCommands_of_zeroing rfl (fun y => ?_) (fun y => ?_) .inl
      · by_cases hy : y = x
        · exact .inr (by simp [hy])
        · exact .inl (by simp [PerCell.get_set_of_ne _ _ hy])
      · by_cases hy : y = x
        · exact .inr (by simp [hy, forbids_zero])
        · exact .inl (branchState_putBranch_of_ne b s hy)
    · next hforb =>
      refine keepsCommands_of_zeroing rfl (fun y => .inl rfl) (fun y => ?_) .inl
      by_cases hy : y = x
      · rw [hy, branchState_putBranch]
        exact .inr (eq_false_of_ne_true hforb)
      · exact .inl (branchState_putBranch_of_ne b s hy)

theorem keepsCommands_tripDischarge (x : Cell) (s : State) : keepsCommands s (tripDischarge x s) := by
  unfold tripDischarge
  dsimp only
  split
  · exact keepsCommands_of_orders (orders_putBranch rfl)
  · exact keepsCommands_congr (keepsCommands_moveBranch x _ s) (orders_latch _ _)

theorem keepsCommands_tripCharge (x : Cell) (s : State) : keepsCommands s (tripCharge x s) := by
  unfold tripCharge
  dsimp only
  split
  · exact keepsCommands_of_orders (orders_putBranch rfl)
  · exact keepsCommands_congr (keepsCommands_moveBranch x _ s) (orders_latch _ _)

theorem keepsCommands_tripCutoff (x : Cell) (s : State) : keepsCommands s (tripCutoff x s) := by
  unfold tripCutoff
  rw [anchorCount_eq]
  exact keepsCommands_congr (keepsCommands_congr (keepsCommands_moveBranch x _ s) (orders_withCount x 0 _)) (orders_latch _ _)

/-- The five tests of an accepted sample, in their order (R107). -/
theorem keepsCommands_branchTests (x : Cell) (v : Nat) (i t : Int) (s : State) : keepsCommands s (branchTests x v i t s) := by
  have discharge (u : State) : keepsCommands u (dischargeTest x i u) := by
    unfold dischargeTest
    extract_lets n
    split
    · exact keepsCommands_tripDischarge x u
    · exact keepsCommands_of_orders (orders_putBranch rfl)
  have charge (u : State) : keepsCommands u (chargeTest x i u) := by
    unfold chargeTest
    extract_lets n
    split
    · exact keepsCommands_tripCharge x u
    · exact keepsCommands_of_orders (orders_putBranch rfl)
  have overtemp (u : State) : keepsCommands u (overtempTest x t u) := by
    unfold overtempTest
    dsimp only
    split
    · exact keepsCommands_congr (keepsCommands_moveBranch x _ u) (orders_latch _ _)
    · exact keepsCommands_ite fun _ => keepsCommands_moveBranch x _ u
  have cutoff (u : State) : keepsCommands u (cutoffTest x v u) := by
    unfold cutoffTest
    extract_lets n
    split
    · exact keepsCommands_tripCutoff x u
    · exact keepsCommands_of_orders (orders_putBranch rfl)
  have release (u : State) : keepsCommands u (cutoffRelease x v u) :=
    keepsCommands_ite fun _ => keepsCommands_moveBranch x _ u
  unfold branchTests
  exact keepsCommands_trans (discharge _) <| keepsCommands_trans (charge _) <| keepsCommands_trans (overtemp _) <|
    keepsCommands_trans (cutoff _) (release _)

theorem keepsCommands_branchSlot (x : Cell) (accepted : Bool) (s : State) : keepsCommands s (branchSlot x accepted s) := by
  unfold branchSlot
  split
  · exact keepsCommands_refl s
  · exact keepsCommands_ite fun _ => keepsCommands_branchTests x _ _ _ s

theorem keepsCommands_dischargeRun (x : Cell) (s : State) : keepsCommands s (dischargeRun x s) :=
  keepsCommands_ite fun _ => keepsCommands_tripDischarge x s

theorem keepsCommands_chargeRun (x : Cell) (s : State) : keepsCommands s (chargeRun x s) :=
  keepsCommands_ite fun _ => keepsCommands_tripCharge x s

theorem keepsCommands_cutoffRun (x : Cell) (s : State) : keepsCommands s (cutoffRun x s) :=
  keepsCommands_ite fun _ => keepsCommands_tripCutoff x s

/-! ### System load monitor (6.6) -/

@[simp] theorem orders_turnOverdrawOn (s : State) : orders (turnOverdrawOn s) = orders s := by
  simp [turnOverdrawOn]

@[simp] theorem orders_turnOverdrawOff (s : State) : orders (turnOverdrawOff s) = orders s := by
  simp [turnOverdrawOff]

@[simp] theorem orders_overdrawOnRun (s : State) : orders (overdrawOnRun s) = orders s := by
  simp [overdrawOnRun, apply_ite orders]

@[simp] theorem orders_overdrawOffRun (s : State) : orders (overdrawOffRun s) = orders s := by
  simp [overdrawOffRun, apply_ite orders]

@[simp] theorem orders_resetLoad (s : State) : orders (resetLoad s) = orders s := rfl

@[simp] theorem orders_loadSample (p : Int) (s : State) : orders (loadSample p s) = orders s := by
  simp only [loadSample, loadOnTest, loadOffTest, apply_ite orders, orders_turnOverdrawOn, orders_turnOverdrawOff, orders_putLoad,
    ite_self]
  rfl

/-! ### Cell monitors (4) -/

theorem keepsCommands_handOn (x : Cell) (accepted : Bool) (order : SlotOrder) (s : State) :
    keepsCommands s (handOn x accepted order s) := by
  have charge (u : State) : keepsCommands u (chargeSlot x accepted u) := keepsCommands_of_orders (orders_chargeSlot x accepted u)
  cases order with
  | chargeFirst => exact keepsCommands_trans (charge s) (keepsCommands_branchSlot x accepted _)
  | branchFirst => exact keepsCommands_trans (keepsCommands_branchSlot x accepted s) (charge _)

@[simp] theorem orders_storeSample (x : Cell) (v : Nat) (i t : Int) (farOt : Bool) (counted : Int) (s : State) :
    orders (storeSample x v i t farOt counted s) = orders s := by
  unfold storeSample noteZone
  dsimp only
  split <;> simp [apply_ite orders]

@[simp] theorem orders_noteEstimated (failed : Bool) (s : State) : orders (noteEstimated failed s) = orders s := rfl

theorem keepsCommands_cellASample (v i t : Int) (order : SlotOrder) (s : State) :
    keepsCommands s (cellASample v i t order s) := by
  unfold cellASample
  extract_lets v' i' t'
  refine keepsCommands_trans (keepsCommands_of_orders ?_) (keepsCommands_handOn .A true order _)
  rw [orders_storeSample]
  rfl

theorem keepsCommands_cellBGood (f : FarSample) (order : SlotOrder) (s : State) : keepsCommands s (cellBGood f order s) := by
  unfold cellBGood
  extract_lets i counted
  exact keepsCommands_trans (keepsCommands_of_orders (by simp)) (keepsCommands_handOn .B true order _)

theorem keepsCommands_cellBHeld (s : State) : keepsCommands s (cellBHeld s) := by
  unfold cellBHeld
  split
  · exact keepsCommands_refl s
  · extract_lets counted
    exact keepsCommands_trans (keepsCommands_of_orders (by simp)) (keepsCommands_handOn .B false .chargeFirst _)

@[simp] theorem orders_rescale (x : Cell) (old : Nat) (s : State) : orders (rescale x old s) = orders s := by
  unfold rescale
  split <;> rfl

/-! ### Hinge link controller (7) -/

theorem keepsCommands_putHinge {h : Hinge} {s : State} (hd : h.dataState = s.hinge.dataState) :
    keepsCommands s (putHinge h s) :=
  keepsCommands_of_orders (orders_putHinge hd)

/-- The data state moves to one in which cell B may be charged. -/
theorem keepsCommands_putHinge_of_not_holds {h : Hinge} (s : State) (hd : h.dataState.holds = false) :
    keepsCommands s (putHinge h s) :=
  keepsCommands_of_zeroing rfl (fun _ => .inl rfl) (fun _ => .inl rfl) fun ht => by simp [hd] at ht

theorem keepsCommands_setDataState {d : DataState} (s : State) (hd : d.holds = false) : keepsCommands s (setDataState d s) := by
  unfold setDataState
  exact keepsCommands_congr (keepsCommands_putHinge_of_not_holds s hd) (orders_requestPassIf _ _)

theorem keepsCommands_recover (s : State) : keepsCommands s (recover s) := by
  unfold recover
  refine keepsCommands_congr ?_ (orders_requestPass _)
  refine keepsCommands_congr ?_ (orders_latch _ _)
  exact keepsCommands_putHinge_of_not_holds s rfl

/-- Whatever the hinge link controller becomes, cell B is not charged once its positive command is set to 0 (R123, step 2). -/
theorem keepsCommands_zeroChargeB_putHinge (h : Hinge) (s : State) : keepsCommands s (zeroChargeB (putHinge h s)) := by
  unfold zeroChargeB
  split
  · refine keepsCommands_of_zeroing rfl (fun x => ?_) (fun x => ?_) fun _ => .inr (by simp)
    · cases x with
      | A => exact .inl rfl
      | B => exact .inr rfl
    · exact .inl rfl
  · next hneg => exact keepsCommands_of_zeroing rfl (fun _ => .inl rfl) (fun _ => .inl rfl) fun _ => .inr (not_lt.mp hneg)

theorem keepsCommands_enterStale (s : State) : keepsCommands s (enterStale s) := by
  unfold enterStale
  refine keepsCommands_congr ?_ (orders_requestPass _)
  refine keepsCommands_congr ?_ (orders_latch _ _)
  exact keepsCommands_zeroChargeB_putHinge _ s

/-- The data state becomes LIVE or SUSPECT after a change of the runs. -/
theorem keepsCommands_setDataState_putHinge {d : DataState} {h : Hinge} {s : State} (hd : d.holds = false)
    (hh : h.dataState = s.hinge.dataState) : keepsCommands s (setDataState d (putHinge h s)) :=
  keepsCommands_trans (keepsCommands_putHinge hh) (keepsCommands_setDataState _ hd)

/-- A failed exchange: only entry to STALE brings in a data state that holds charge (R122, R123, R125). -/
theorem keepsCommands_onFailed (s : State) : keepsCommands s (onFailed s) := by
  unfold onFailed
  dsimp only
  split
  · exact keepsCommands_putHinge rfl
  · exact keepsCommands_setDataState_putHinge rfl rfl
  · split
    · exact keepsCommands_enterStale s
    · exact keepsCommands_putHinge rfl
  · exact keepsCommands_putHinge rfl
  · exact keepsCommands_putHinge rfl

theorem keepsCommands_onGood (s : State) : keepsCommands s (onGood s) := by
  have live : keepsCommands s (setDataState .live (putHinge { s.hinge with failRun := 0 } s)) :=
    keepsCommands_setDataState_putHinge rfl rfl
  have recovering : keepsCommands s (onGoodRecovering s) := by
    unfold onGoodRecovering
    dsimp only
    split
    · exact keepsCommands_recover s
    · exact keepsCommands_putHinge rfl
  unfold onGood
  split
  · exact live
  · exact live
  · exact live
  · exact recovering
  · exact recovering

theorem keepsCommands_failExchange (f : Failure) (s : State) : keepsCommands s (failExchange f s) := by
  unfold failExchange
  extract_lets s1
  have ended : orders (putHinge { s1.hinge with exch := .ended, brk := some Config.breakTime } s1) = orders s1 :=
    orders_putHinge rfl
  exact keepsCommands_trans (keepsCommands_congr (keepsCommands_onFailed s) (by rw [orders_count, ended]))
    (keepsCommands_cellBHeld _)

theorem keepsCommands_goodExchange (m : SampleMsg) (order : SlotOrder) (s : State) :
    keepsCommands s (goodExchange m order s) := by
  unfold goodExchange
  extract_lets f
  refine keepsCommands_trans ?_ (keepsCommands_cellBGood f order _)
  refine keepsCommands_trans ?_ (keepsCommands_onGood _)
  exact keepsCommands_putHinge rfl

theorem keepsCommands_hingeSlot (hslLow : Bool) (s : State) : keepsCommands s (hingeSlot hslLow s) := by
  unfold hingeSlot
  extract_lets slots s1
  have timed : keepsCommands s s1 := keepsCommands_of_orders rfl
  split
  · exact timed
  · split
    · exact keepsCommands_trans timed (keepsCommands_failExchange _ s1)
    · refine keepsCommands_trans timed ?_
      exact keepsCommands_putHinge rfl

theorem keepsCommands_pollCollision (s : State) : keepsCommands s (pollCollision s) := by
  unfold pollCollision
  split
  · exact keepsCommands_failExchange _ s
  · exact keepsCommands_refl s
  · exact keepsCommands_refl s

theorem keepsCommands_pollComplete (s : State) : keepsCommands s (pollComplete s) := by
  unfold pollComplete
  split
  · exact keepsCommands_putHinge rfl
  · exact keepsCommands_refl s
  · exact keepsCommands_refl s

theorem keepsCommands_replyWindowExpiry (begun : Bool) (s : State) : keepsCommands s (replyWindowExpiry begun s) := by
  unfold replyWindowExpiry
  split
  · exact keepsCommands_ite fun _ => keepsCommands_failExchange _ s
  · exact keepsCommands_refl s
  · exact keepsCommands_refl s

theorem keepsCommands_sampleRead (line : List Bool) (order : SlotOrder) (s : State) :
    keepsCommands s (sampleRead line order s) := by
  unfold sampleRead
  split
  · unfold judgeSample
    split
    · exact keepsCommands_goodExchange _ order s
    · exact keepsCommands_failExchange _ s
  · exact keepsCommands_refl s
  · exact keepsCommands_refl s
  · exact keepsCommands_refl s

theorem keepsCommands_farBreak (s : State) : keepsCommands s (farBreak s) := by
  unfold farBreak
  split
  · exact keepsCommands_failExchange _ s
  · exact keepsCommands_failExchange _ s
  · exact keepsCommands_refl s

theorem keepsCommands_breakEnd (s : State) : keepsCommands s (breakEnd s) :=
  keepsCommands_ite fun _ => keepsCommands_putHinge rfl

theorem keepsCommands_replyRise (c : FramingCause) (s : State) : keepsCommands s (replyRise c s) := by
  unfold replyRise
  split
  · split
    · split
      · exact keepsCommands_putHinge rfl
      · exact keepsCommands_failExchange _ s
    · exact keepsCommands_failExchange _ s
  · exact keepsCommands_refl s
  · exact keepsCommands_refl s

theorem keepsCommands_failureRun (s : State) : keepsCommands s (failureRun s) :=
  keepsCommands_ite fun _ => keepsCommands_trans (keepsCommands_enterStale s) (keepsCommands_cellBHeld _)

theorem keepsCommands_goodRun (order : SlotOrder) (s : State) : keepsCommands s (goodRun order s) := by
  unfold goodRun
  split
  · split
    · exact keepsCommands_trans (keepsCommands_recover s) (keepsCommands_cellBGood _ order _)
    · exact keepsCommands_recover s
  · exact keepsCommands_refl s

/-- STALE becomes DEGRADED, and both hold charge (R124). -/
theorem keepsCommands_degradedExpiry (s : State) : keepsCommands s (degradedExpiry s) := by
  refine keepsCommands_ite fun hstale => ?_
  have hholds : s.hinge.dataState.holds = true := by rw [hstale.1]; rfl
  have moved (h : Hinge) : keepsCommands s (putHinge h s) :=
    keepsCommands_of_zeroing rfl (fun _ => .inl rfl) (fun _ => .inl rfl) fun _ => .inl hholds
  refine keepsCommands_congr ?_ (orders_requestPass _)
  exact keepsCommands_congr (moved _) (orders_latch _ _)

/-! ### Source arbiter, input ports and die monitor (8, 9) -/

theorem orders_switchOpened (dest : ArbState) (s : State) : orders (switchOpened dest s) = orders s := rfl

@[simp] theorem orders_leaveActive (dest : ArbState) (s : State) : orders (leaveActive dest s) = orders s := by
  rw [leaveActive_eq, orders_switchOpened]

@[simp] theorem orders_goActive (p : PortId) (s : State) : orders (goActive p s) = orders s := by
  unfold goActive activatePort
  rw [orders_requestPass]
  split <;> rfl

@[simp] theorem orders_goIdle (dest : ArbState) (s : State) : orders (goIdle dest s) = orders s := by
  rw [goIdle_eq]
  rfl

@[simp] theorem orders_breakExpiry (s : State) : orders (breakExpiry s) = orders s := by
  have chosen (u : State) : orders (endChangeover u) = orders u := by
    unfold endChangeover
    split <;> simp
  simp only [breakExpiry, apply_ite orders, chosen]
  split
  · split <;> rfl
  · rfl

@[simp] theorem orders_preferenceChange (s : State) : orders (preferenceChange s) = orders s := by
  unfold preferenceChange
  split <;> simp [apply_ite orders]

/-- A change of eligibility reaches the arbiter, the ports, charge control and the pass request alone (R147, R148). -/
@[simp] theorem orders_handEligibility (p : PortId) (b : Bool) (s : State) : orders (handEligibility p b s) = orders s := by
  have gain : orders (arbGain p s) = orders s := by
    unfold arbGain
    split <;> simp [apply_ite orders]
  have loss : orders (arbLoss p s) = orders s := by
    unfold arbLoss
    split <;> simp [apply_ite orders]
  simp [handEligibility, apply_ite orders, gain, loss]

@[simp] theorem orders_stepPort (p : PortId) (w : PortStep) (s : State) : orders (stepPort p w s) = orders s := by
  rw [stepPort_eq, orders_handEligibility]
  unfold portStepped
  split <;> rfl

@[simp] theorem orders_inputSample (p : PortId) (vin : Int) (s : State) : orders (inputSample p vin s) = orders s :=
  orders_stepPort p _ _

@[simp] theorem orders_attachRun (p : PortId) (s : State) : orders (attachRun p s) = orders s := by
  simp [attachRun, apply_ite orders]

@[simp] theorem orders_detachRun (p : PortId) (s : State) : orders (detachRun p s) = orders s := by
  simp [detachRun, apply_ite orders]

@[simp] theorem orders_inputOvervoltageRun (p : PortId) (s : State) : orders (inputOvervoltageRun p s) = orders s := by
  simp [inputOvervoltageRun, apply_ite orders]

@[simp] theorem orders_offerWindowExpiry (p : PortId) (s : State) : orders (offerWindowExpiry p s) = orders s := by
  simp [offerWindowExpiry, apply_ite orders]

@[simp] theorem orders_confirmExpiry (p : PortId) (s : State) : orders (confirmExpiry p s) = orders s := by
  simp [confirmExpiry, apply_ite orders]

@[simp] theorem orders_verifyExpiry (p : PortId) (s : State) : orders (verifyExpiry p s) = orders s := by
  simp [verifyExpiry, apply_ite orders]

@[simp] theorem orders_reevaluateBoth (s : State) : orders (reevaluateBoth s) = orders s := by
  have one (p : PortId) (u : State) : orders (reevaluatePort p u) = orders u := by
    simp [reevaluatePort, apply_ite orders]
  simp [reevaluateBoth, apply_ite orders, one]

@[simp] theorem orders_dieSample (t : Int) (s : State) : orders (dieSample t s) = orders s := by
  simp only [dieSample, setDieZone, apply_ite orders, orders_reevaluateBoth]
  split
  · rfl
  · split <;> rfl

/-! ### The fold line (R37) -/

@[simp] theorem orders_foldLevelChange (high : Bool) (s : State) : orders (foldLevelChange high s) = orders s := by
  unfold foldLevelChange
  split <;> rfl

@[simp] theorem orders_foldSettleExpiry (s : State) : orders (foldSettleExpiry s) = orders s := by
  unfold foldSettleExpiry
  split
  · rw [orders_requestPassIf]
    rfl
  · rfl

/-! ### Ends of records (R19 to R24) and a millisecond -/

@[simp] theorem orders_expireWhere (due : Record → Bool) (k : Fin 24) (c : EndCause) (s : State) :
    orders (expireWhere due k c s) = orders s := by
  have ended : orders (endRecord k c s) = orders s := by
    unfold endRecord
    split <;> simp [apply_ite orders]
  rcases expireWhere_cases due k c s with ⟨r, -, -, heq⟩ | heq
  · rw [heq, ended]
  · rw [heq]

@[simp] theorem orders_silenceExpiry (s : State) : orders (silenceExpiry s) = orders s := by
  by_cases hend : s.link.silence = some 0
  · rw [silenceExpiry_of_end hend, silenceRelease_frame, budget_silenceRelease]
    unfold orders
    dsimp only
    split <;> rfl
  · rw [silenceExpiry_of_not_end hend]

theorem orders_advance (s : State) : orders (advance s) = orders s := rfl

/-! ### Control link port, limit set and condition unit (10, 11) -/

@[simp] theorem orders_restartSilence (s : State) : orders (restartSilence s) = orders s := rfl
@[simp] theorem orders_erredFrame (out : Outc) (s : State) : orders (erredFrame out s) = orders s := rfl
@[simp] theorem orders_rstnRise (s : State) : orders (rstnRise s) = orders s := rfl

@[simp] theorem orders_frameTimeout (s : State) : orders (frameTimeout s) = orders s := by
  unfold frameTimeout
  split <;> rfl

@[simp] theorem orders_lselFall (s : State) : orders (lselFall s) = orders s := by
  unfold lselFall
  split
  · dsimp only
    split
    · rfl
    · split <;> rfl
  · rfl

@[simp] theorem orders_applyWrite (a : LimitAddr) (l : Limits) (s : State) : orders (applyWrite a l s) = orders s := by
  have handOff (old : Limits) (u : State) : orders (handOffLimit a old u) = orders u := by
    unfold handOffLimit
    split <;> simp
  unfold applyWrite
  split
  · rfl
  · rw [handOff, orders_requestPass]
    rfl

end Sys2Proof.Machine
end

section
/-! Both invariants of the commands along every row: the commands of a frame, the resets, the passes, and a millisecond (R61, R62). -/

namespace Sys2Proof.Machine

/-! ### Commands (1.5, 10.3) -/

/-- A command that keeps both invariants, whatever its arguments. -/
def cmdKeepsCommands (cmd : List Byte → State → Result) : Prop :=
  ∀ args s, keepsCommands s (cmd args s).st

theorem cmdKeepsCommands_of_orders {cmd : List Byte → State → Result} (h : ∀ args s, orders (cmd args s).st = orders s) :
    cmdKeepsCommands cmd :=
  fun args s => keepsCommands_of_orders (h args s)

/-- The commands that only read, and the one of a code that names none. -/
theorem cmdKeepsCommands_of_reads {cmd : List Byte → State → Result}
    (h : cmd ∈ [nopCmd, queryCmd, readBudgetCmd, readCellCmd, readInputCmd, getLimitCmd, unknownCmd]) :
    cmdKeepsCommands cmd := by
  refine cmdKeepsCommands_of_orders fun args s => congrArg orders ?_
  simp only [List.mem_cons, List.not_mem_nil, or_false] at h
  rcases h with rfl | rfl | rfl | rfl | rfl | rfl | rfl
  · cases args <;> rfl
  · unfold queryCmd
    split
    · split <;> rfl
    · rfl
  · cases args <;> rfl
  · unfold readCellCmd
    split <;> rfl
  · unfold readInputCmd
    split <;> rfl
  · unfold getLimitCmd
    split <;> rfl
  · rfl

/-- The commands of the condition unit and LOCK_LIMITS, which touch no other block (R161, R166 to R168). -/
theorem cmdKeepsCommands_of_conditions {cmd : List Byte → State → Result}
    (h : cmd ∈ [lockLimitsCmd, readConditionsCmd, setMasksCmd, readCountersCmd]) : cmdKeepsCommands cmd := by
  refine cmdKeepsCommands_of_orders fun args s => ?_
  simp only [List.mem_cons, List.not_mem_nil, or_false] at h
  rcases h with rfl | rfl | rfl | rfl
  · cases args <;> rfl
  · cases args <;> rfl
  · unfold setMasksCmd
    split <;> rfl
  · cases args <;> rfl

theorem cmdKeepsCommands_reserveCmd : cmdKeepsCommands reserveCmd := by
  refine cmdKeepsCommands_of_orders fun args s => ?_
  unfold reserveCmd
  split
  · rfl
  · split <;> simp [refuse]

theorem cmdKeepsCommands_adjustCmd : cmdKeepsCommands adjustCmd := by
  refine cmdKeepsCommands_of_orders fun args s => ?_
  unfold adjustCmd
  split
  · rfl
  · split <;> simp [refuse, doneWith, apply_ite Result.st, apply_ite orders]

theorem cmdKeepsCommands_renewCmd : cmdKeepsCommands renewCmd := by
  refine cmdKeepsCommands_of_orders fun args s => ?_
  unfold renewCmd
  split
  · rfl
  · split <;> simp [refuse, doneWith, apply_ite Result.st, apply_ite orders]

theorem cmdKeepsCommands_releaseCmd : cmdKeepsCommands releaseCmd := by
  refine cmdKeepsCommands_of_orders fun args s => ?_
  unfold releaseCmd
  split
  · rfl
  · split <;> simp [refuse, doneWith]

theorem orders_clearMark (k : Fin 24) (s : State) : orders (clearMark k s) = orders s := by
  unfold clearMark
  split <;> simp

theorem cmdKeepsCommands_collectCmd : cmdKeepsCommands collectCmd := by
  have cleared (ks : List (Fin 24)) (s : State) : orders (ks.foldl (fun t k => clearMark k t) s) = orders s := by
    induction ks generalizing s with
    | nil => rfl
    | cons k ks ih => rw [List.foldl_cons, ih, orders_clearMark]
  refine cmdKeepsCommands_of_orders fun args s => ?_
  cases args with
  | nil => exact cleared _ s
  | cons b bs => rfl

theorem cmdKeepsCommands_offersCmd : cmdKeepsCommands offersCmd := by
  refine cmdKeepsCommands_of_orders fun args s => ?_
  unfold offersCmd
  split
  · rfl
  · simp [refuse, apply_ite Result.st, apply_ite orders]

theorem cmdKeepsCommands_appliedCmd : cmdKeepsCommands appliedCmd := by
  refine cmdKeepsCommands_of_orders fun args s => ?_
  unfold appliedCmd
  split
  · rfl
  · simp [refuse, doneWith, apply_ite Result.st, apply_ite orders]

theorem cmdKeepsCommands_isolateCmd : cmdKeepsCommands isolateCmd := by
  refine cmdKeepsCommands_of_orders fun args s => ?_
  unfold isolateCmd
  split
  · rfl
  · simp [refuse, doneWith, apply_ite Result.st, apply_ite orders]

theorem cmdKeepsCommands_setLimitCmd : cmdKeepsCommands setLimitCmd := by
  refine cmdKeepsCommands_of_orders fun args s => ?_
  unfold setLimitCmd
  split
  · rfl
  · simp [refuse, apply_ite Result.st, apply_ite orders]

theorem cmdKeepsCommands_isolateCellCmd : cmdKeepsCommands isolateCellCmd := by
  intro args s
  unfold isolateCellCmd
  split
  · exact keepsCommands_refl s
  · exact keepsCommands_moveBranch _ _ s

theorem cmdKeepsCommands_clearFaultCmd : cmdKeepsCommands clearFaultCmd := by
  intro args s
  unfold clearFaultCmd
  split
  · exact keepsCommands_refl s
  · next x _ =>
    have cleared : keepsCommands s (clearChgFault x s) := keepsCommands_of_orders (orders_clearChgFault x s)
    exact keepsCommands_ite fun _ => keepsCommands_trans cleared (keepsCommands_moveBranch x _ _)

theorem cmdKeepsCommands_of_mem {cmd : List Byte → State → Result} (h : cmd ∈ hostCommandMeanings) : cmdKeepsCommands cmd := by
  revert cmd
  simp only [hostCommandMeanings, List.forall_mem_cons, List.not_mem_nil, false_imp_iff, implies_true, and_true]
  exact ⟨cmdKeepsCommands_of_reads (by simp), cmdKeepsCommands_reserveCmd, cmdKeepsCommands_adjustCmd,
    cmdKeepsCommands_renewCmd, cmdKeepsCommands_releaseCmd, cmdKeepsCommands_of_reads (by simp), cmdKeepsCommands_collectCmd,
    cmdKeepsCommands_of_reads (by simp), cmdKeepsCommands_of_reads (by simp), cmdKeepsCommands_of_reads (by simp),
    cmdKeepsCommands_offersCmd, cmdKeepsCommands_appliedCmd, cmdKeepsCommands_isolateCmd, cmdKeepsCommands_isolateCellCmd,
    cmdKeepsCommands_clearFaultCmd, cmdKeepsCommands_setLimitCmd, cmdKeepsCommands_of_reads (by simp),
    cmdKeepsCommands_of_conditions (by simp), cmdKeepsCommands_of_conditions (by simp),
    cmdKeepsCommands_of_conditions (by simp), cmdKeepsCommands_of_conditions (by simp), cmdKeepsCommands_of_reads (by simp)⟩

/-! ### Resets (R31, R114, R154) -/

/-- A power-on reset puts both commands to 0, with both branches CLOSED (R31, R114). -/
theorem keepsCommands_powerOnReset (s : State) : keepsCommands s (powerOnReset s) :=
  keepsCommands_of_ok ⟨rfl, rfl⟩

/-- A control reset moves both branches; its other steps leave the orders alone (R154). -/
theorem keepsCommands_controlReset (s : State) : keepsCommands s (controlReset s) := by
  unfold controlReset resetBlocks
  generalize hu : resetCharge .B _ = u
  have before : keepsCommands s u := by
    rw [← hu]
    refine keepsCommands_of_orders ?_
    simp only [orders_resetCharge, resetCells, orders_rescale]
    rfl
  have branches : keepsCommands u (resetBranch .B (resetBranch .A u)) :=
    keepsCommands_trans (keepsCommands_moveBranch .A _ u) (keepsCommands_moveBranch .B _ _)
  exact keepsCommands_congr (keepsCommands_trans before branches) (by simp)

theorem keepsCommands_rstnFall (s : State) : keepsCommands s (rstnFall s) := by
  unfold rstnFall
  split
  · exact keepsCommands_refl s
  · refine keepsCommands_trans ?_ (keepsCommands_controlReset _)
    exact keepsCommands_of_orders rfl

/-! ### Frames (R155 to R157) -/

/-- A command carried out answers and restarts the silence timer, beside what it does itself. -/
theorem keepsCommands_runCommand {cmd : List Byte → State → Result} (hcmd : cmdKeepsCommands cmd) (args : List Byte)
    (s : State) : keepsCommands s (runCommand cmd args s) :=
  keepsCommands_congr (hcmd args s) (by simp [runCommand])

theorem keepsCommands_runReset (args : List Byte) (s : State) : keepsCommands s (runReset args s) := by
  cases args with
  | nil => exact keepsCommands_congr (keepsCommands_controlReset s) (orders_restartSilence _)
  | cons b bs => exact keepsCommands_of_orders rfl

theorem keepsCommands_takeFrame (bs : List Byte) (s : State) : keepsCommands s (takeFrame bs s) := by
  unfold takeFrame
  split
  · exact keepsCommands_of_orders (orders_erredFrame _ s)
  · next code args _ =>
    rcases runCode_cases code args s with heq | ⟨cmd, hmem, heq⟩
    · exact heq ▸ keepsCommands_runReset args s
    · exact heq ▸ keepsCommands_runCommand (cmdKeepsCommands_of_mem hmem) args s

/-- A rise of LSEL keeps both invariants where what is done with its frame does. -/
theorem keepsCommands_lselRiseWith {take : State → State} (htake : ∀ u, keepsCommands u (take u)) (s : State) :
    keepsCommands s (lselRiseWith take s) := by
  unfold lselRiseWith
  split
  · exact keepsCommands_refl s
  · extract_lets link s1
    have raised : keepsCommands s s1 := keepsCommands_of_orders rfl
    have ended : keepsCommands s (endFrame s1) := keepsCommands_of_orders rfl
    split
    · exact raised
    · split
      · exact raised
      · exact keepsCommands_trans ended (htake _)
      · exact ended

/-- The row of a command is a whole frame: a fall, and the rise that takes it (R155, R156). -/
theorem keepsCommands_commandFrame {run : List Byte → State → State} {args : List Byte}
    (hrun : ∀ u, keepsCommands u (run args u)) (s : State) : keepsCommands s (commandFrame run args s) := by
  refine keepsCommands_trans (keepsCommands_of_orders (orders_lselFall s)) (keepsCommands_lselRiseWith (fun u => ?_) _)
  split
  · exact hrun u
  · exact keepsCommands_of_orders (orders_erredFrame _ u)

/-! ### Every row and every step -/

theorem keepsCommands_passTimerExpiry (s : State) : keepsCommands s (passTimerExpiry s) :=
  keepsCommands_ite fun _ => keepsCommands_of_ok (commandsOk_budgetPass s)

theorem keepsCommands_requestDelayExpiry (s : State) : keepsCommands s (requestDelayExpiry s) :=
  keepsCommands_ite fun _ => keepsCommands_of_ok (commandsOk_budgetPass s)

/-- Every row keeps both invariants: a pass sets the commands anew, a change of a branch or of cell B's data state sets what it
forbids to 0, and every other row leaves the orders alone. -/
theorem keepsCommands_of_exec {i : Instr} {s t : State} (he : exec i s = .next t) : keepsCommands s t := by
  cases i with
  | passTimerExpiry => cases he; exact keepsCommands_passTimerExpiry s
  | requestDelayExpiry => cases he; exact keepsCommands_requestDelayExpiry s
  | powerOnReset => cases he; exact keepsCommands_powerOnReset s
  | rstnLow => cases he; exact keepsCommands_rstnFall s
  | reset args => cases he; exact keepsCommands_commandFrame (keepsCommands_runReset args) s
  | lselRise bits => cases he; exact keepsCommands_lselRiseWith (keepsCommands_takeFrame _) s
  | nop args | reserve args | adjust args | renew args | release args | query args | collect args | readBudget args
  | readCell args | readInput args | offers args | applied args | isolate args | isolateCell args | clearFault args
  | setLimit args | getLimit args | lockLimits args | readConditions args | setMasks args | readCounters args =>
    cases he
    exact keepsCommands_commandFrame
      (keepsCommands_runCommand (cmdKeepsCommands_of_mem (by simp [hostCommandMeanings])) args) s
  | cellASample v i t order => cases he; exact keepsCommands_cellASample v i t order s
  | dischargeOvercurrentRun x => cases he; exact keepsCommands_dischargeRun x s
  | chargeOvercurrentRun x => cases he; exact keepsCommands_chargeRun x s
  | cutoffRun x => cases he; exact keepsCommands_cutoffRun x s
  | hingeSlot hslLow => cases he; exact keepsCommands_hingeSlot hslLow s
  | pollCollision => cases he; exact keepsCommands_pollCollision s
  | pollComplete => cases he; exact keepsCommands_pollComplete s
  | replyWindowExpiry begun => cases he; exact keepsCommands_replyWindowExpiry begun s
  | badReplyFraming cause => cases he; exact keepsCommands_replyRise cause s
  | sample line order => cases he; exact keepsCommands_sampleRead line order s
  | farBreak => cases he; exact keepsCommands_farBreak s
  | hslBreakEnd => cases he; exact keepsCommands_breakEnd s
  | failureRun => cases he; exact keepsCommands_failureRun s
  | goodRun order => cases he; exact keepsCommands_goodRun order s
  | degradedTimerExpiry => cases he; exact keepsCommands_degradedExpiry s
  | lifetimeExpiry k | burstExpiry k | burstTotalExpiry k | waitLimitExpiry k =>
    cases he
    exact keepsCommands_of_orders (orders_expireWhere _ k _ s)
  | _ =>
    cases he
    exact keepsCommands_of_orders (by simp)

/-- Settles O7: every row keeps both invariants, and so does a millisecond; a row reads the orders on whatever queue. -/
theorem stepKeepsCommandsWithinLimits : Obligations.StepKeepsCommandsWithinLimits := by
  intro s t hstep
  rcases step_cases hstep with ⟨i, q, he⟩ | rfl
  · have queued : keepsCommands s { s with pending := q } := keepsCommands_of_orders rfl
    exact keepsCommands_trans queued (keepsCommands_of_exec he)
  · exact keepsCommands_of_orders (orders_advance s)

end Sys2Proof.Machine
end

section
/-! Selection as the best of a list: the candidates of the pairs in the order of their indices, of which selection keeps the best
(R135). -/

namespace Sys2Proof.Machine

/-! ### The candidates of the pairs -/

/-- A FIXED offer's one voltage, where it lies in the entry's window (R135, step 1). -/
theorem intersection_fixed_eq_some_iff {v i : Nat} {a : ProfileEntry} {w : Nat × Nat} :
    intersection (.fixed v i) a = some w ↔ a.vlo ≤ v ∧ v ≤ a.vhi ∧ (v, v) = w := by
  simp [intersection, and_assoc]

/-- The part of a RANGE offer in the entry's window, where it is not empty (R135, step 1). -/
theorem intersection_range_eq_some_iff {lo hi i : Nat} {a : ProfileEntry} {w : Nat × Nat} :
    intersection (.range lo hi i) a = some w ↔ max lo a.vlo ≤ min hi a.vhi ∧ (max lo a.vlo, min hi a.vhi) = w := by
  simp only [intersection, Option.ite_none_right_eq_some, Option.some.injEq]

/-- What a pair gives: its indices, the voltage of step 3 and the current of step 4, where no step skips it (R135). -/
theorem candidate_eq_some_iff {P oi ai : Nat} {o : Offer} {a : ProfileEntry} {c : Proposal} :
    candidate P o oi a ai = some c ↔
      c.offer = oi ∧ c.entry = ai ∧ a.imax ≠ 0 ∧ 100 ≤ c.i ∧ ∃ w, intersection o a = some w ∧
        c.v = candidateVolt P o w.1 w.2 (min o.imax a.imax) ∧ c.i = min (min o.imax a.imax) (ceilCurrent P c.v) := by
  unfold candidate
  by_cases used : a.imax = 0
  · simp [used]
  rw [if_neg used]
  cases hw : intersection o a with
  | none => simp
  | some w =>
    dsimp only
    constructor
    · intro h
      split at h
      · cases h
      · next enough =>
        cases h
        exact ⟨rfl, rfl, used, Nat.le_of_not_lt enough, w, rfl, rfl, rfl⟩
    · obtain ⟨v, i, co, ce⟩ := c
      dsimp only
      rintro ⟨rfl, rfl, -, enough, w, ⟨⟩, rfl, rfl⟩
      exact if_neg (Nat.not_lt_of_le enough)

/-- A candidate carries the indices of its pair. -/
theorem candidate_indices {P oi ai : Nat} {o : Offer} {a : ProfileEntry} {c : Proposal} (h : candidate P o oi a ai = some c) :
    c.offer = oi ∧ c.entry = ai := by
  obtain ⟨ho, he, -⟩ := candidate_eq_some_iff.mp h
  exact ⟨ho, he⟩

/-- The candidates of one offer, by acceptance index. -/
def offerCandidates (P : Nat) (prof : List ProfileEntry) (o : Offer × Nat) : List Proposal :=
  (prof.zipIdx 1).filterMap fun a => candidate P o.1 o.2 a.1 a.2

/-- The candidates of every pair, by offer index and then by acceptance index. -/
def pairCandidates (P : Nat) (prof : List ProfileEntry) (offers : List Offer) : List Proposal :=
  (offers.zipIdx 1).flatMap (offerCandidates P prof)

theorem mem_offerCandidates {P : Nat} {prof : List ProfileEntry} {o : Offer × Nat} {c : Proposal} :
    c ∈ offerCandidates P prof o ↔ ∃ a, 1 ≤ c.entry ∧ prof[c.entry - 1]? = some a ∧
      candidate P o.1 o.2 a c.entry = some c := by
  simp only [offerCandidates, List.mem_filterMap, Prod.exists, List.mk_mem_zipIdx_iff_le_and_getElem?_sub]
  constructor
  · rintro ⟨a, ai, ⟨pos, ho⟩, h⟩
    obtain ⟨-, rfl⟩ := candidate_indices h
    exact ⟨a, pos, ho, h⟩
  · rintro ⟨a, pos, ho, h⟩
    exact ⟨a, c.entry, ⟨pos, ho⟩, h⟩

theorem mem_pairCandidates {P : Nat} {prof : List ProfileEntry} {offers : List Offer} {c : Proposal} :
    c ∈ pairCandidates P prof offers ↔ ∃ o a, 1 ≤ c.offer ∧ offers[c.offer - 1]? = some o ∧ 1 ≤ c.entry ∧
      prof[c.entry - 1]? = some a ∧ candidate P o c.offer a c.entry = some c := by
  simp only [pairCandidates, List.mem_flatMap, Prod.exists, List.mk_mem_zipIdx_iff_le_and_getElem?_sub, mem_offerCandidates]
  constructor
  · rintro ⟨o, oi, ⟨pos, ho⟩, a, pos', ha, h⟩
    obtain ⟨rfl, -⟩ := candidate_indices h
    exact ⟨o, a, pos, ho, pos', ha, h⟩
  · rintro ⟨o, a, pos, ho, pos', ha, h⟩
    exact ⟨o, c.offer, ⟨pos, ho⟩, a, pos', ha, h⟩

/-- The list holds exactly the candidates of R135. -/
theorem mem_pairCandidates_iff_isCandidate {P : Nat} {l : Limits} {offers : List Offer} {c : Proposal} :
    c ∈ pairCandidates P l.profile.toList offers ↔ isCandidate P l offers c := by
  rw [mem_pairCandidates]
  unfold isCandidate
  refine exists_congr fun o => exists_congr fun a => ?_
  cases o with
  | fixed v i =>
    simp only [candidate_eq_some_iff, intersection_fixed_eq_some_iff, candidateVolt, Offer.imax, ceilCurrent, true_and, and_assoc,
      exists_and_left, exists_eq_left', and_congr_right_iff]
    rintro - - - - - - - - hv
    rw [hv]
  | range lo hi i =>
    simp only [candidate_eq_some_iff, intersection_range_eq_some_iff, candidateVolt, Offer.imax, ceilCurrent, roundUp20, ceilDiv,
      true_and, and_assoc, exists_and_left, exists_eq_left']
    rfl

/-! ### Their order -/

/-- Whether the pair of `b` is taken before that of `c`: the lower offer index, then the lower acceptance index. -/
def pairBefore (b c : Proposal) : Prop :=
  b.offer < c.offer ∨ (b.offer = c.offer ∧ b.entry < c.entry)

theorem pairwise_zipIdx_lt {α : Type} (l : List α) (n : Nat) : (l.zipIdx n).Pairwise fun a b => a.2 < b.2 := by
  rw [← List.pairwise_map, List.zipIdx_map_snd]
  exact List.pairwise_lt_range'

theorem offer_of_mem_offerCandidates {P : Nat} {prof : List ProfileEntry} {o : Offer × Nat} {c : Proposal}
    (h : c ∈ offerCandidates P prof o) : c.offer = o.2 := by
  obtain ⟨a, -, -, hc⟩ := mem_offerCandidates.mp h
  obtain ⟨ho, -⟩ := candidate_indices hc
  exact ho

theorem offerCandidates_pairwise (P : Nat) (prof : List ProfileEntry) (o : Offer × Nat) :
    (offerCandidates P prof o).Pairwise pairBefore := by
  refine List.pairwise_filterMap.mpr ((pairwise_zipIdx_lt prof 1).imp fun hlt b hb c hc => .inr ?_)
  obtain ⟨hbo, hbe⟩ := candidate_indices hb
  obtain ⟨hco, hce⟩ := candidate_indices hc
  omega

theorem pairCandidates_pairwise (P : Nat) (prof : List ProfileEntry) (offers : List Offer) :
    (pairCandidates P prof offers).Pairwise pairBefore := by
  refine List.pairwise_flatMap.mpr ⟨fun o _ => offerCandidates_pairwise P prof o, ?_⟩
  refine (pairwise_zipIdx_lt offers 1).imp fun hlt b hb c hc => .inl ?_
  rw [offer_of_mem_offerCandidates hb, offer_of_mem_offerCandidates hc]
  exact hlt

/-! ### Selection keeps the best of the list -/

/-- A candidate met after the best so far. -/
def keepBest (best : Option Proposal) (c : Proposal) : Option Proposal := pickBetter best (some c)

theorem pickBetter_none (best : Option Proposal) : pickBetter best none = best := by
  cases best <;> rfl

theorem bestOfOffer_eq_foldl (P : Nat) (o : Offer) (oi : Nat) (prof : List ProfileEntry) (ai : Nat) (best : Option Proposal) :
    bestOfOffer P o oi prof ai best =
      ((prof.zipIdx ai).filterMap fun a => candidate P o oi a.1 a.2).foldl keepBest best := by
  induction prof generalizing ai best with
  | nil => rfl
  | cons a as ih =>
    rw [bestOfOffer, ih, List.zipIdx_cons]
    cases hc : candidate P o oi a ai with
    | none => simp [hc, pickBetter_none]
    | some c => simp [hc, keepBest]

theorem bestOfOffers_eq_foldl (P : Nat) (prof : List ProfileEntry) (os : List Offer) (oi : Nat) (best : Option Proposal) :
    bestOfOffers P prof os oi best = ((os.zipIdx oi).flatMap (offerCandidates P prof)).foldl keepBest best := by
  induction os generalizing oi best with
  | nil => rfl
  | cons o os ih =>
    rw [bestOfOffers, ih, bestOfOffer_eq_foldl, List.zipIdx_cons, List.flatMap_cons, List.foldl_append]
    rfl

theorem selection_eq_foldl (P : Nat) (l : Limits) (offers : List Offer) :
    selection P l offers = (pairCandidates P l.profile.toList offers).foldl keepBest none :=
  bestOfOffers_eq_foldl P _ offers 1 none

theorem losesTo_refl (c : Proposal) : losesTo c c := by
  unfold losesTo
  omega

theorem losesTo_trans {a b c : Proposal} (hab : losesTo a b) (hbc : losesTo b c) : losesTo a c := by
  unfold losesTo at *
  omega

/-- One candidate is better than another by its power, and at equal power by its lower voltage (R135, step 5). -/
theorem Proposal.better_iff {c b : Proposal} :
    c.better b = true ↔
      b.v * b.i / 1000 < c.v * c.i / 1000 ∨ (c.v * c.i / 1000 = b.v * b.i / 1000 ∧ c.v < b.v) := by
  simp only [Proposal.better, Bool.or_eq_true, Bool.and_eq_true, decide_eq_true_eq, beq_iff_eq]
  rfl

/-- A candidate that is better wins, whatever the indices (R135). -/
theorem losesTo_of_better {b c : Proposal} (h : c.better b = true) : losesTo b c := by
  rw [Proposal.better_iff] at h
  unfold losesTo
  omega

/-- A later candidate that is not better loses: a tie goes to the earlier pair (R135). -/
theorem losesTo_of_not_better {b c : Proposal} (hord : pairBefore b c) (h : ¬c.better b = true) : losesTo c b := by
  rw [Proposal.better_iff] at h
  unfold pairBefore at hord
  unfold losesTo
  omega

/-- Along a list in the order of the pairs, the best kept is one of the list that all the others lose to. -/
theorem foldl_keepBest_some (l : List Proposal) (b : Proposal) (hord : (b :: l).Pairwise pairBefore) :
    ∃ r ∈ b :: l, l.foldl keepBest (some b) = some r ∧ ∀ c ∈ b :: l, losesTo c r := by
  induction l generalizing b with
  | nil => exact ⟨b, by simp, rfl, by simp [losesTo_refl]⟩
  | cons c l ih =>
    obtain ⟨hb, hcl⟩ := List.pairwise_cons.mp hord
    obtain ⟨hc, hl⟩ := List.pairwise_cons.mp hcl
    by_cases h : c.better b = true
    · obtain ⟨r, hr, hfold, hbest⟩ := ih c hcl
      refine ⟨r, List.mem_cons_of_mem b hr, by simpa [keepBest, pickBetter, h] using hfold, ?_⟩
      exact List.forall_mem_cons.mpr ⟨losesTo_trans (losesTo_of_better h) (hbest c List.mem_cons_self), hbest⟩
    · obtain ⟨r, hr, hfold, hbest⟩ := ih b (List.pairwise_cons.mpr ⟨fun d hd => hb d (List.mem_cons_of_mem c hd), hl⟩)
      obtain ⟨hbr, hlr⟩ := List.forall_mem_cons.mp hbest
      have hcr : losesTo c r := losesTo_trans (losesTo_of_not_better (hb c List.mem_cons_self) h) hbr
      refine ⟨r, ?_, by simpa [keepBest, pickBetter, h] using hfold, ?_⟩
      · exact (List.Sublist.cons_cons b (List.sublist_cons_self c l)).subset hr
      · exact List.forall_mem_cons.mpr ⟨hbr, List.forall_mem_cons.mpr ⟨hcr, hlr⟩⟩

/-- Selection has no result where no pair gives a candidate, and otherwise the one that all the others lose to (R135). -/
theorem selection_cases (P : Nat) (l : Limits) (offers : List Offer) :
    (selection P l offers = none ∧ ∀ c, ¬isCandidate P l offers c) ∨
    ∃ r, selection P l offers = some r ∧ isCandidate P l offers r ∧ ∀ c, isCandidate P l offers c → losesTo c r := by
  have hord := pairCandidates_pairwise P l.profile.toList offers
  simp only [selection_eq_foldl, ← mem_pairCandidates_iff_isCandidate]
  cases hcands : pairCandidates P l.profile.toList offers with
  | nil => exact .inl ⟨rfl, by simp⟩
  | cons b cs =>
    obtain ⟨r, hr, hfold, hbest⟩ := foldl_keepBest_some cs b (hcands ▸ hord)
    exact .inr ⟨r, hfold, hr, hbest⟩

/-- Settles O44: the pairs come in the order of their indices, so keeping the earlier of a tie keeps the lower indices. -/
theorem selectionTakesTheBestCandidate : Obligations.SelectionTakesTheBestCandidate := by
  intro P l offers
  rcases selection_cases P l offers with ⟨hnone, hempty⟩ | ⟨r, hsome, hr, hbest⟩
  · exact ⟨fun b hb => by simp [hnone] at hb, fun _ => hempty⟩
  · refine ⟨fun b hb => ?_, fun hnone => by simp [hnone] at hsome⟩
    obtain rfl : r = b := by simpa [hsome] using hb
    exact ⟨hr, hbest⟩

end Sys2Proof.Machine
end

section
/-! What a row can do to the state, said once: the elementary updates the blocks are built from, each with what its block sees to, and
that every row is a chain of them. An invariant that every elementary update keeps is kept by every row. -/

namespace Sys2Proof.Machine

/-! ### The elementary updates -/

/-- A port's record within a ceiling `P`: without a held contract its Ie is 0; with one it is READY, PROPOSED or CONFIRMING, and its Ie
is bounded by the held and the ceiling current (R139, R140). -/
def Port.within (P : Nat) (q : Port) : Bool :=
  match q.held with
  | none => q.ie == 0
  | some h => (q.st == .ready || q.st == .proposed || q.st == .confirming) && q.ie ≤ h.i && q.ie ≤ P * 1000 / h.v

theorem portOk_eq (s : State) (p : PortId) : portOk s p = (s.port.get p).within (portCeiling s p) := rfl

/-- The hinge link controller's part of the ladder (7.3). -/
def Hinge.ladder (h : Hinge) : Bool :=
  h.failRun ≤ 3 && h.goodRun ≤ 4 && (h.goodRun == 0 || h.dataState.byCommand) &&
    h.degTimer.isSome == (h.dataState == .stale) && h.latest.isSome == (h.dataState != .awaiting) &&
    h.lastSeq.isSome == (h.dataState != .awaiting)

/-- An accepted far sample lies in the ranges R120 admits. -/
def FarSample.ok (f : FarSample) : Bool := 2000 ≤ f.v && f.v ≤ 4700 && -40 ≤ f.t && f.t ≤ 100

/-- A GOOD exchange up to the store of its sample: the controller accepts it, its data state moves, and cell monitor B stores it (R72,
R120, R125). -/
def storeFarSample (f : FarSample) (q : Byte) (counted : Int) (s : State) : State :=
  storeSample .B f.v (clampInt (-8000) 8000 f.i) f.t f.farOt counted
    (onGood (putHinge { s.hinge with exch := .ended, latest := some f, lastSeq := some q } s))

/-- An elementary update of the state, with what it leaves to hold of its block where that held before. -/
inductive Update : State → State → Prop where
  | budget {s : State} (b : Budget) (request : requestOk s → requestOk { s with budget := b })
      (input : activePort s = none → s.budget.inputCmd = none → b.inputCmd = none) : Update s { s with budget := b }
  | cond {s : State} (c : CondUnit) (counters : countersOk s → countersOk { s with cond := c }) : Update s { s with cond := c }
  | charge {s : State} (x : Cell) (c : Charge) (session : chargeOk (s.chg.get x) → chargeOk c) : Update s (putCharge x c s)
  | branch {s : State} (x : Cell) (b : Branch) : Update s (putBranch x b s)
  | load {s : State} (l : Load) (overdraw : overdrawOk s → overdrawOk (putLoad l s)) : Update s (putLoad l s)
  | count {s : State} (x : Cell) (n : Nat) (full : n ≤ fullCount s.lim x) : Update s (withCount x n s)
  | reading {s : State} (x : Cell) (r : Reading) (full : r.count ≤ fullCount s.lim x) (range : readingsOk s → readingOk r)
      (present : x = .B → ladderOk s → (readingOf s .B).isSome) : Update s (putReading x r s)
  | flags {s : State} (x : Cell) (m : Monitor) (reading : m.rd = (s.mon.get x).rd) : Update s (putMonitor x m s)
  | hinge {s : State} (h : Hinge) (latest : h.latest = s.hinge.latest)
      (awaits : h.dataState = .awaiting ↔ s.hinge.dataState = .awaiting) (ladder : s.hinge.ladder → h.ladder) :
      Update s (putHinge h s)
  | farSample {s : State} (f : FarSample) (q : Byte) (counted : Int) (range : f.ok) : Update s (storeFarSample f q counted s)
  | slots {s : State} (q : Slots) : Update s { s with slots := q }
  | port {s : State} (p : PortId) (w : PortStep) (within : portOk s p → w.port.within (portCeiling s p)) :
      Update s (stepPort p w s)
  | breakEnd (s : State) : Update s (breakExpiry s)
  | preference (s : State) : Update s (preferenceChange s)
  | table {s : State} (r : Table) (table : limitsOk s.lim → tableOk s → tableOk { s with resv := r }) :
      Update s { s with resv := r }
  | link {s : State} (l : Link) (receiver : receiverOk s → receiverOk { s with link := l }) : Update s { s with link := l }

/-- A chain of elementary updates. -/
def Updates : State → State → Prop := Relation.ReflTransGen Update

theorem Updates.refl {s : State} : Updates s s := Relation.ReflTransGen.refl

theorem Updates.of {s t : State} (h : Update s t) : Updates s t := Relation.ReflTransGen.single h

theorem Updates.trans {s t u : State} (h : Updates s t) (g : Updates t u) : Updates s u := Relation.ReflTransGen.trans h g

/-- Updates behind a condition. -/
theorem Updates.ite {s t u : State} {c : Prop} [Decidable c] (h : c → Updates s t) (g : ¬c → Updates s u) :
    Updates s (if c then t else u) := by
  split
  · exact h ‹_›
  · exact g ‹_›

/-- An invariant that every elementary update keeps is kept by a chain of them. -/
theorem Updates.keeps {P : State → Prop} (hP : ∀ s t, Update s t → P s → P t) {s t : State} (h : Updates s t) (hs : P s) : P t := by
  induction h with
  | refl => exact hs
  | tail _ hu ih => exact hP _ _ hu ih

/-! ### Shared updates -/

theorem requestOk_withRequest {s : State} (h : requestOk s) : requestOk (withRequest s) := by
  unfold requestOk at *
  cases hm : s.budget.mark <;> simp_all

theorem updates_withRequest (s : State) : Updates s (withRequest s) :=
  .of (.budget _ requestOk_withRequest fun _ h => h)

theorem updates_requestPass (s : State) : Updates s (requestPass s) := requestPass_eq s ▸ updates_withRequest s

theorem updates_requestPassIf (c : Bool) (s : State) : Updates s (requestPassIf c s) :=
  .ite (fun _ => updates_requestPass s) fun _ => .refl

theorem updates_latch (c : Condition) (s : State) : Updates s (latch c s) := .of (.cond _ fun h => h)

theorem updates_setCmd (x : Cell) (c : Int) (s : State) : Updates s (setCmd x c s) :=
  .of (.budget _ (fun h => h) fun _ h => h)

theorem countersOk_count (i : CounterId) {s : State} (h : countersOk s) : countersOk (count i s) := by
  simp only [countersOk, Bool.and_eq_true, decide_eq_true_eq, count_cond] at h ⊢
  cases i <;> simp_all [Counters.bump, satCount_le]

theorem updates_count (i : CounterId) (s : State) : Updates s (count i s) := .of (.cond _ (countersOk_count i))

theorem updates_slots (q : Slots) (s : State) : Updates s { s with slots := q } := .of (.slots q)

/-! ### Charge control (5) -/

theorem updates_moveCharge (x : Cell) (c : Charge) (s : State) (h : chargeOk (s.chg.get x) → chargeOk c) :
    Updates s (moveCharge x c s) :=
  (Updates.of (.charge x c h)).trans (updates_requestPassIf _ _)

theorem updates_anchorCount (x : Cell) (n : Nat) (s : State) (h : n ≤ fullCount s.lim x) : Updates s (anchorCount x n s) :=
  anchorCount_eq x n s ▸ .of (.count x n h)

@[simp] theorem moveCharge_lim (x : Cell) (c : Charge) (s : State) : (moveCharge x c s).lim = s.lim := by
  rw [moveCharge_eq, withPhase_lim]

theorem chargeOk_iff (c : Charge) :
    chargeOk c = true ↔ c.session.isSome = c.phase.inSession ∧ c.ovRun ≤ 2 ∧ c.termRun ≤ 2 ∧ (c.termRun = 0 ∨ c.phase = .taper) := by
  simp [chargeOk, and_assoc]

theorem updates_enterFull (x : Cell) (s : State) : Updates s (enterFull x s) := by
  refine ((updates_moveCharge x _ s fun h => ?_).trans (updates_anchorCount x _ _ ?_)).trans (updates_latch _ _)
  · simp_all [chargeOk_iff, Phase.inSession]
  · rw [moveCharge_lim]

theorem updates_enterChgFault (x : Cell) (c : ChgFault) (s : State) : Updates s (enterChgFault x c s) := by
  refine (updates_moveCharge x _ s fun h => ?_).trans (updates_latch _ _)
  simp_all [chargeOk_iff, Phase.inSession]

/-- Entry to OFF with the runs at any value in their ranges (R100, R104). -/
theorem updates_enterOff (x : Cell) (s : State) : Updates s (enterOff x s) :=
  updates_moveCharge x _ s fun h => by simp_all [chargeOk_iff, Phase.inSession]

theorem updates_resetCharge (x : Cell) (s : State) : Updates s (resetCharge x s) :=
  updates_moveCharge x _ s fun _ => by simp [chargeOk_iff, Phase.inSession]

theorem updates_clearChgFault (x : Cell) (s : State) : Updates s (clearChgFault x s) :=
  .ite (fun _ => updates_enterOff x s) fun _ => .refl

/-- A phase of the session left for another one with the session kept, the termination run not counted (R93, R94, R97). -/
theorem updates_keepSession (x : Cell) (p : Phase) (n : Nat) (s : State) (hs : (s.chg.get x).phase.inSession) (hp : p.inSession)
    (hn : (s.chg.get x).phase ≠ .taper ∧ n = (s.chg.get x).termRun ∨ n = 0) :
    Updates s (moveCharge x { s.chg.get x with phase := p, termRun := n } s) :=
  updates_moveCharge x _ s fun h => by
    obtain ⟨hsess, hov, hterm, htaper⟩ := (chargeOk_iff _).mp h
    refine (chargeOk_iff _).mpr ⟨hsess.trans (hs.trans hp.symm), hov, ?_⟩
    rcases hn with ⟨hne, rfl⟩ | rfl
    · exact ⟨hterm, .inl (htaper.resolve_right hne)⟩
    · exact ⟨Nat.zero_le _, .inl rfl⟩

theorem updates_enterHold (x : Cell) (s : State) (hs : (s.chg.get x).phase.inSession) : Updates s (enterHold x s) :=
  updates_keepSession x .hold 0 s hs rfl (.inr rfl)

theorem updates_beginSession (x : Cell) (p : Phase) (s : State) (hs : (s.chg.get x).phase ≠ .taper) (hp : p.inSession) :
    Updates s (beginSession x p s) :=
  updates_moveCharge x _ s fun h => by
    simp only [chargeOk_iff, hp, Option.isSome_some] at h ⊢
    simp_all

theorem updates_startTest (x : Cell) (v : Nat) (s : State) (hs : (s.chg.get x).phase = .off) : Updates s (startTest x v s) :=
  .ite (fun _ => .ite (fun _ => updates_beginSession x _ s (by simp [hs]) rfl) fun _ =>
    .ite (fun _ => updates_beginSession x _ s (by simp [hs]) rfl) fun _ => updates_enterFull x s) fun _ => .refl

theorem updates_resumeTest (x : Cell) (v : Nat) (s : State) (hs : (s.chg.get x).phase = .hold) : Updates s (resumeTest x v s) :=
  .ite (fun _ => .refl) fun _ =>
    .ite (fun _ => updates_keepSession x .precharge _ s (by simp [hs, Phase.inSession]) rfl (.inl (by simp [hs]))) fun _ =>
      .ite (fun _ => updates_keepSession x .fast _ s (by simp [hs, Phase.inSession]) rfl (.inl (by simp [hs]))) fun _ =>
        updates_enterFull x s

theorem updates_rechargeTest (x : Cell) (v : Nat) (s : State) (hs : (s.chg.get x).phase = .full) :
    Updates s (rechargeTest x v s) :=
  .ite (fun _ => updates_beginSession x _ s (by simp [hs]) rfl) fun _ => .refl

theorem updates_prechargeTest (x : Cell) (v : Nat) (s : State) (hs : (s.chg.get x).phase = .precharge) :
    Updates s (prechargeTest x v s) :=
  .ite (fun _ => updates_keepSession x .fast _ s (by simp [hs, Phase.inSession]) rfl (.inl (by simp [hs]))) fun _ => .refl

theorem updates_fastTest (x : Cell) (v : Nat) (s : State) (hs : (s.chg.get x).phase = .fast) : Updates s (fastTest x v s) :=
  .ite (fun _ => updates_keepSession x .taper 0 s (by simp [hs, Phase.inSession]) rfl (.inr rfl)) fun _ => .refl

theorem updates_taperTest (x : Cell) (i : Int) (s : State) (hs : (s.chg.get x).phase = .taper) : Updates s (taperTest x i s) := by
  refine .ite (fun _ => updates_enterFull x s) fun hn => .of (.charge x _ fun h => ?_)
  obtain ⟨hsess, hov, -⟩ := (chargeOk_iff _).mp h
  exact (chargeOk_iff _).mpr ⟨hsess, hov, by dsimp only; omega, .inr hs⟩

theorem updates_phaseTests (x : Cell) (v : Nat) (i : Int) (s : State) : Updates s (phaseTests x v i s) := by
  unfold phaseTests
  split <;> rename_i hs
  · exact .refl
  · exact updates_startTest x v s hs
  · exact .ite (fun _ => updates_enterHold x s (by simp [hs, Phase.inSession])) fun _ => updates_prechargeTest x v s hs
  · exact .ite (fun _ => updates_enterHold x s (by simp [hs, Phase.inSession])) fun _ => updates_fastTest x v s hs
  · exact .ite (fun _ => updates_enterHold x s (by simp [hs, Phase.inSession])) fun _ => updates_taperTest x i s hs
  · exact updates_resumeTest x v s hs
  · exact updates_rechargeTest x v s hs

theorem updates_heldSlotTest (x : Cell) (s : State) : Updates s (heldSlotTest x s) := by
  unfold heldSlotTest
  split <;> rename_i hs
  · exact .ite (fun _ => updates_enterHold x s (by simp [hs, Phase.inSession])) fun _ => .refl
  · exact .ite (fun _ => updates_enterHold x s (by simp [hs, Phase.inSession])) fun _ => .refl
  · exact .ite (fun _ => updates_enterHold x s (by simp [hs, Phase.inSession])) fun _ => .refl
  all_goals exact .refl

theorem updates_evalAccepted (x : Cell) (v : Nat) (i : Int) (s : State) : Updates s (evalAccepted x v i s) := by
  refine .ite (fun _ => .refl) fun _ => .ite (fun _ => updates_enterChgFault x _ s) fun hn =>
    (Updates.of (.charge x _ fun h => ?_)).trans (updates_phaseTests x v i _)
  obtain ⟨hsess, -, hterm⟩ := (chargeOk_iff _).mp h
  exact (chargeOk_iff _).mpr ⟨hsess, by dsimp only; omega, hterm⟩

theorem updates_handTarget (x : Cell) (s : State) : Updates s (handTarget x s) := .of (.charge x _ fun h => h)

theorem updates_chargeSlot (x : Cell) (accepted : Bool) (s : State) : Updates s (chargeSlot x accepted s) := by
  unfold chargeSlot
  split
  · exact .refl
  · exact .ite (fun _ => (updates_handTarget x s).trans (updates_evalAccepted x _ _ _))
      fun _ => (updates_handTarget x s).trans (updates_heldSlotTest x _)

/-! ### Branch protection and the system load monitor (6) -/

theorem updates_moveBranch (x : Cell) (b : Branch) (s : State) : Updates s (moveBranch x b s) := by
  have put : Updates s (putBranch x b s) := .of (.branch x b)
  refine .ite (fun _ => put) fun _ => put.trans (.trans ?_ (updates_requestPass _))
  exact .ite (fun _ => updates_setCmd x 0 _) fun _ => .refl

theorem updates_tripDischarge (x : Cell) (s : State) : Updates s (tripDischarge x s) :=
  .ite (fun _ => .of (.branch x _)) fun _ => (updates_moveBranch x _ s).trans (updates_latch _ _)

theorem updates_tripCharge (x : Cell) (s : State) : Updates s (tripCharge x s) :=
  .ite (fun _ => .of (.branch x _)) fun _ => (updates_moveBranch x _ s).trans (updates_latch _ _)

theorem updates_tripCutoff (x : Cell) (s : State) : Updates s (tripCutoff x s) :=
  ((updates_moveBranch x _ s).trans (updates_anchorCount x 0 _ (Nat.zero_le _))).trans (updates_latch _ _)

theorem updates_branchTests (x : Cell) (v : Nat) (i t : Int) (s : State) : Updates s (branchTests x v i t s) := by
  have discharge (u : State) : Updates u (dischargeTest x i u) :=
    .ite (fun _ => updates_tripDischarge x u) fun _ => .of (.branch x _)
  have charge (u : State) : Updates u (chargeTest x i u) := .ite (fun _ => updates_tripCharge x u) fun _ => .of (.branch x _)
  have overtemp (u : State) : Updates u (overtempTest x t u) :=
    .ite (fun _ => (updates_moveBranch x _ u).trans (updates_latch _ _)) fun _ =>
      .ite (fun _ => updates_moveBranch x _ u) fun _ => .refl
  have cutoff (u : State) : Updates u (cutoffTest x v u) := .ite (fun _ => updates_tripCutoff x u) fun _ => .of (.branch x _)
  have release (u : State) : Updates u (cutoffRelease x v u) := .ite (fun _ => updates_moveBranch x _ u) fun _ => .refl
  exact (discharge _).trans <| (charge _).trans <| (overtemp _).trans <| (cutoff _).trans (release _)

theorem updates_branchSlot (x : Cell) (accepted : Bool) (s : State) : Updates s (branchSlot x accepted s) := by
  unfold branchSlot
  split
  · exact .refl
  · exact .ite (fun _ => updates_branchTests x _ _ _ s) fun _ => .refl

theorem unaccounted_le (s : State) : unaccounted s ≤ 65535 := Nat.min_le_left _ _

theorem overdrawOk_iff (s : State) :
    overdrawOk s = true ↔ (s.load.on = true ∨ s.load.U = 0) ∧ s.load.U ≤ 65535 ∧ s.load.pm ≤ 100000 := by
  simp [overdrawOk, and_assoc]

theorem updates_turnOverdrawOn (s : State) : Updates s (turnOverdrawOn s) := by
  refine .trans (.of (.load _ fun h => ?_)) <| (updates_latch _ _).trans <| (updates_count _ _).trans (updates_requestPass _)
  obtain ⟨-, -, hpm⟩ := (overdrawOk_iff s).mp h
  exact (overdrawOk_iff _).mpr ⟨.inl rfl, unaccounted_le s, hpm⟩

theorem updates_turnOverdrawOff (s : State) : Updates s (turnOverdrawOff s) := by
  refine .trans (.of (.load _ fun h => ?_)) (updates_requestPass _)
  obtain ⟨-, -, hpm⟩ := (overdrawOk_iff s).mp h
  exact (overdrawOk_iff _).mpr ⟨.inr rfl, Nat.zero_le _, hpm⟩

theorem updates_loadOnTest (s : State) (hon : s.load.on = true) : Updates s (loadOnTest s) := by
  refine .ite (fun _ => updates_turnOverdrawOff s) fun _ => .of (.load _ fun h => ?_)
  obtain ⟨-, -, hpm⟩ := (overdrawOk_iff s).mp h
  exact (overdrawOk_iff _).mpr ⟨.inl hon, unaccounted_le s, hpm⟩

theorem updates_loadOffTest (s : State) : Updates s (loadOffTest s) :=
  .ite (fun _ => updates_turnOverdrawOn s) fun _ => .of (.load _ fun h => h)

/-- The reading of a load sample stored (R115). -/
theorem updates_storePm (p : Int) (s : State) : Updates s (putLoad { s.load with pm := (clampInt 0 100000 p).toNat } s) := by
  have hp := clampInt_mem 0 100000 p (by omega)
  refine .of (.load _ fun h => ?_)
  obtain ⟨hu, hmax, -⟩ := (overdrawOk_iff s).mp h
  exact (overdrawOk_iff _).mpr ⟨hu, hmax, by dsimp only [putLoad_load]; omega⟩

theorem updates_loadSample (p : Int) (s : State) : Updates s (loadSample p s) :=
  (updates_slots { s.slots with load := Config.slotPeriod } s).trans <| (updates_storePm p _).trans <|
    .ite (fun hon => updates_loadOnTest _ hon) fun _ => updates_loadOffTest _

theorem updates_overdrawOnRun (s : State) : Updates s (overdrawOnRun s) := .ite (fun _ => .refl) fun _ => updates_turnOverdrawOn s

theorem updates_overdrawOffRun (s : State) : Updates s (overdrawOffRun s) :=
  .ite (fun _ => updates_turnOverdrawOff s) fun _ => .refl

theorem updates_resetLoad (s : State) : Updates s (resetLoad s) :=
  .of (.load _ fun h => (overdrawOk_iff _).mpr ⟨.inr rfl, Nat.zero_le _, ((overdrawOk_iff s).mp h).2.2⟩)

/-! ### Cell monitors (4) -/

theorem updates_handOn (x : Cell) (accepted : Bool) (order : SlotOrder) (s : State) : Updates s (handOn x accepted order s) := by
  cases order
  · exact (updates_chargeSlot x accepted s).trans (updates_branchSlot x accepted _)
  · exact (updates_branchSlot x accepted s).trans (updates_chargeSlot x accepted _)

theorem updates_noteZone (x : Cell) (before : Option Zone) (after : Zone) (s : State) : Updates s (noteZone x before after s) := by
  unfold noteZone
  split
  · exact updates_requestPass s
  · exact .ite (fun _ => .refl) fun _ => (updates_latch _ s).trans (updates_requestPass _)

/-- A rest voltage's state of charge is at most that of the last point of the list (R78). -/
theorem restSoc_le (v j : Nat) (l : List Nat) (hl : j + l.length ≤ 11) : restSoc v j l ≤ 1000 := by
  induction l generalizing j with
  | nil => simp [restSoc]
  | cons a l ih =>
    cases l with
    | nil => simp [restSoc]
    | cons b l =>
      simp only [List.length_cons] at hl ih
      unfold restSoc
      split
      · omega
      · split
        · have : 100 * (v - a) / (b - a) ≤ 100 := Nat.div_le_of_le_mul (by rw [Nat.mul_comm]; exact Nat.mul_le_mul_right _ (by omega))
          omega
        · exact ih (j + 1) (by omega)

theorem firstCount_le (l : Limits) (x : Cell) (v : Nat) : firstCount l x v ≤ fullCount l x := by
  have h := restSoc_le v 0 l.rest.toList (by simp)
  unfold firstCount fullCount
  calc restSoc v 0 l.rest.toList * l.cap.get x * 3600 ≤ 1000 * l.cap.get x * 3600 := by gcongr
    _ = l.cap.get x * 3600000 := by ring

/-- The count a monitor stores with a sample (R74, R78). -/
def storedCount (x : Cell) (v : Nat) (counted : Int) (s : State) : Nat :=
  match readingOf s x with
  | none => firstCount s.lim x v
  | some r => countAfter (fullCount s.lim x) r.count counted

theorem storedCount_le (x : Cell) (v : Nat) (counted : Int) (s : State) : storedCount x v counted s ≤ fullCount s.lim x := by
  unfold storedCount
  split
  · exact firstCount_le _ _ _
  · exact countAfter_le _ _ _

theorem storeSample_eq (x : Cell) (v : Nat) (i t : Int) (farOt : Bool) (counted : Int) (s : State) :
    storeSample x v i t farOt counted s =
      noteZone x ((readingOf s x).map fun r => r.zone) (sampleZone s.lim t farOt ((readingOf s x).map fun r => r.zone))
        (putReading x ⟨v, i, t, farOt, sampleZone s.lim t farOt ((readingOf s x).map fun r => r.zone), storedCount x v counted s⟩
          s) := by
  unfold storeSample storedCount
  cases readingOf s x <;> rfl

theorem updates_storeSample (x : Cell) (v : Nat) (i t : Int) (farOt : Bool) (counted : Int) (s : State)
    (hr : readingsOk s → v ≤ 5000 ∧ -8000 ≤ i ∧ i ≤ 8000 ∧ -40 ≤ t ∧ t ≤ 125) (hp : x = .B → ladderOk s → (readingOf s .B).isSome) :
    Updates s (storeSample x v i t farOt counted s) := by
  rw [storeSample_eq]
  refine (Updates.of (.reading x _ (storedCount_le x v counted s) (fun h => ?_) hp)).trans (updates_noteZone _ _ _ _)
  simp [readingOk, hr h]

theorem updates_cellASample (v i t : Int) (order : SlotOrder) (s : State) : Updates s (cellASample v i t order s) := by
  have hv := clampInt_mem 0 5000 v (by omega)
  have hi := clampInt_mem (-8000) 8000 i (by omega)
  have ht := clampInt_mem (-40) 125 t (by omega)
  refine (updates_slots _ s).trans ((updates_storeSample .A _ _ _ _ _ _ (fun _ => ?_) nofun).trans (updates_handOn _ _ _ _))
  omega

theorem updates_noteEstimated (failed : Bool) (s : State) : Updates s (noteEstimated failed s) := .of (.flags .B _ rfl)

/-- A reading put with another count is the count set. -/
theorem putReading_count {s : State} {x : Cell} {r : Reading} (hr : readingOf s x = some r) (n : Nat) :
    putReading x { r with count := n } s = withCount x n s := by
  unfold readingOf at hr
  simp [putReading, putMonitor, withCount, hr]

theorem updates_cellBHeld (s : State) : Updates s (cellBHeld s) := by
  unfold cellBHeld
  split
  · exact .refl
  · next r hr =>
    dsimp only
    rw [putReading_count hr]
    exact (Updates.of (.count .B _ (countAfter_le _ _ _))).trans <| (updates_noteEstimated _ _).trans (updates_handOn _ _ _ _)

/-! ### Hinge link controller (7) -/

theorem Hinge.ladder_iff (h : Hinge) :
    h.ladder = true ↔ h.failRun ≤ 3 ∧ h.goodRun ≤ 4 ∧ (h.goodRun = 0 ∨ h.dataState.byCommand = true) ∧
      (h.degTimer.isSome = true ↔ h.dataState = .stale) ∧ (h.latest.isSome = true ↔ h.dataState ≠ .awaiting) ∧
      (h.lastSeq.isSome = true ↔ h.dataState ≠ .awaiting) := by
  simp only [Hinge.ladder, Bool.and_eq_true, decide_eq_true_eq, Bool.or_eq_true, beq_iff_eq, and_assoc]
  cases h.degTimer.isSome <;> cases h.latest.isSome <;> cases h.lastSeq.isSome <;> simp

/-- The exchange and the break are no part of the ladder. -/
theorem updates_putExchange (e : Exchange) (b : Option Nat) (s : State) :
    Updates s (putHinge { s.hinge with exch := e, brk := b } s) :=
  .of (.hinge _ rfl .rfl fun h => h)

theorem updates_setDataState_suspect (n : Nat) (hn : n ≤ 3) (s : State) (hs : s.hinge.dataState = .live) :
    Updates s (setDataState .suspect (putHinge { s.hinge with failRun := n, goodRun := 0 } s)) := by
  refine .trans (Updates.of ?_) (updates_requestPassIf _ _)
  have h : putHinge { (putHinge { s.hinge with failRun := n, goodRun := 0 } s).hinge with dataState := .suspect }
      (putHinge { s.hinge with failRun := n, goodRun := 0 } s) =
      putHinge { s.hinge with dataState := .suspect, failRun := n, goodRun := 0 } s := rfl
  rw [h]
  refine .hinge _ rfl (by simp [hs]) fun hl => ?_
  simp_all [Hinge.ladder_iff]

theorem updates_enterStale (s : State) (hs : s.hinge.dataState = .suspect) : Updates s (enterStale s) := by
  refine .trans (Updates.of (.hinge _ (by rfl) (by simp [hs]) fun hl => ?_)) <|
    .trans (.ite (fun _ => updates_setCmd .B 0 _) fun _ => .refl) <| (updates_latch _ _).trans (updates_requestPass _)
  simp_all [Hinge.ladder_iff]

theorem updates_recover (s : State) (hs : s.hinge.dataState.byCommand = true) : Updates s (recover s) := by
  refine .trans (Updates.of (.hinge _ (by rfl) ?_ fun hl => ?_)) <| (updates_latch _ _).trans (updates_requestPass _)
  · cases hd : s.hinge.dataState <;> simp_all [DataState.byCommand]
  · cases hd : s.hinge.dataState <;> simp_all [DataState.byCommand, Hinge.ladder_iff]

theorem updates_failRunUp (s : State) : Updates s (putHinge { s.hinge with failRun := failRunUp s.hinge.failRun, goodRun := 0 } s) :=
  .of (.hinge _ rfl .rfl fun hl => by simp_all [Hinge.ladder_iff, failRunUp])

theorem updates_onFailed (s : State) : Updates s (onFailed s) := by
  unfold onFailed
  dsimp only
  split <;> rename_i hd
  · exact updates_failRunUp s
  · exact updates_setDataState_suspect 1 (by omega) s hd
  · exact .ite (fun _ => updates_enterStale s hd) fun _ => updates_failRunUp s
  · exact updates_failRunUp s
  · exact updates_failRunUp s

theorem updates_failExchange (f : Failure) (s : State) : Updates s (failExchange f s) :=
  (updates_onFailed s).trans <| (updates_putExchange _ _ _).trans <| (updates_count _ _).trans (updates_cellBHeld _)

theorem updates_cellBGood_of_accepted (f : FarSample) (q : Byte) (order : SlotOrder) (s : State) (hf : f.ok) :
    Updates s (cellBGood f order (onGood (putHinge { s.hinge with exch := .ended, latest := some f, lastSeq := some q } s))) :=
  (Updates.of (.farSample f q _ hf)).trans <| (updates_noteEstimated _ _).trans (updates_handOn _ _ _ _)

theorem farSampleOf_ok {h : Hinge} {m : SampleMsg} (hm : sampleOk h m) : (farSampleOf m).ok := by
  simp only [sampleOk, Bool.and_eq_true] at hm
  simp only [FarSample.ok, Bool.and_eq_true]
  tauto

theorem updates_judgeSample (m : SampleMsg) (order : SlotOrder) (s : State) : Updates s (judgeSample m order s) :=
  .ite (fun hm => updates_cellBGood_of_accepted _ _ _ s (farSampleOf_ok hm)) fun _ => updates_failExchange _ s

theorem updates_hingeSlot (low : Bool) (s : State) : Updates s (hingeSlot low s) :=
  (updates_slots _ s).trans <| .ite (fun _ => .refl) fun _ => .ite (fun _ => updates_failExchange _ _) fun _ =>
    updates_putExchange _ _ _

theorem updates_pollCollision (s : State) : Updates s (pollCollision s) := by
  unfold pollCollision
  split
  · exact updates_failExchange _ s
  · exact .refl
  · exact .refl

theorem updates_pollComplete (s : State) : Updates s (pollComplete s) := by
  unfold pollComplete
  split
  · exact updates_putExchange _ _ s
  · exact .refl
  · exact .refl

theorem updates_replyWindowExpiry (begun : Bool) (s : State) : Updates s (replyWindowExpiry begun s) := by
  unfold replyWindowExpiry
  split
  · exact .ite (fun _ => updates_failExchange _ s) fun _ => .refl
  · exact .refl
  · exact .refl

theorem updates_sampleRead (line : List Bool) (order : SlotOrder) (s : State) : Updates s (sampleRead line order s) := by
  unfold sampleRead
  split
  · exact updates_judgeSample _ _ s
  all_goals exact .refl

theorem updates_farBreak (s : State) : Updates s (farBreak s) := by
  unfold farBreak
  split
  · exact updates_failExchange _ s
  · exact updates_failExchange _ s
  · exact .refl

theorem updates_breakEnd (s : State) : Updates s (breakEnd s) := .ite (fun _ => updates_putExchange _ _ s) fun _ => .refl

theorem updates_replyRise (c : FramingCause) (s : State) : Updates s (replyRise c s) := by
  unfold replyRise
  split
  · cases c
    · exact .ite (fun _ => updates_putExchange _ _ s) fun _ => updates_failExchange _ s
    · exact updates_failExchange _ s
  · exact .refl
  · exact .refl

theorem updates_failureRun (s : State) : Updates s (failureRun s) :=
  .ite (fun hs => (updates_enterStale s hs).trans (updates_cellBHeld _)) fun _ => .refl

theorem updates_degradedExpiry (s : State) : Updates s (degradedExpiry s) := by
  refine .ite (fun hs => .trans (Updates.of (.hinge _ (by rfl) (by simp [hs.1]) fun hl => ?_)) <|
    (updates_latch _ _).trans (updates_requestPass _)) fun _ => .refl
  simp_all [Hinge.ladder_iff, DataState.byCommand]

/-- The values of the latest accepted sample stored again lie in the measuring ranges, and cell B has a record (R73, R125). -/
theorem updates_cellBGood_of_latest (f : FarSample) (order : SlotOrder) (s : State) (hf : s.hinge.latest = some f) :
    Updates s (cellBGood f order s) := by
  have hi := clampInt_mem (-8000) 8000 f.i (by omega)
  refine (updates_storeSample .B _ _ _ _ _ _ (fun h => ?_) fun _ h => ?_).trans <|
    (updates_noteEstimated _ _).trans (updates_handOn _ _ _ _)
  · simp only [readingsOk, hf, Option.all_some, Bool.and_eq_true, decide_eq_true_eq] at h
    obtain ⟨-, ⟨⟨-, hv⟩, ht⟩, ht'⟩ := h
    omega
  · simp only [ladderOk, hf, Bool.and_eq_true, beq_iff_eq, Option.isSome_some] at h
    obtain ⟨⟨⟨-, hlatest⟩, -⟩, hreading⟩ := h
    rw [hreading, ← hlatest]

theorem updates_goodRun (order : SlotOrder) (s : State) : Updates s (goodRun order s) := by
  refine .ite (fun hs => ?_) fun _ => .refl
  split
  · next f hf => exact (updates_recover s hs).trans (updates_cellBGood_of_latest f order _ (by rw [recover, requestPass_eq]; exact hf))
  · exact updates_recover s hs

/-! ### Rows of runs and timers, and the fold state -/

theorem updates_overvoltageRun (x : Cell) (s : State) : Updates s (overvoltageRun x s) :=
  .ite (fun _ => updates_enterChgFault x _ s) fun _ => .refl

theorem updates_terminationRun (x : Cell) (s : State) : Updates s (terminationRun x s) :=
  .ite (fun _ => updates_enterFull x s) fun _ => .refl

theorem updates_prechargeExpiry (x : Cell) (s : State) : Updates s (prechargeExpiry x s) :=
  .ite (fun _ => updates_enterChgFault x _ s) fun _ => .refl

theorem updates_fastExpiry (x : Cell) (s : State) : Updates s (fastExpiry x s) :=
  .ite (fun _ => updates_enterChgFault x _ s) fun _ => .refl

theorem updates_dischargeRun (x : Cell) (s : State) : Updates s (dischargeRun x s) :=
  .ite (fun _ => updates_tripDischarge x s) fun _ => .refl

theorem updates_chargeRun (x : Cell) (s : State) : Updates s (chargeRun x s) :=
  .ite (fun _ => updates_tripCharge x s) fun _ => .refl

theorem updates_cutoffRun (x : Cell) (s : State) : Updates s (cutoffRun x s) :=
  .ite (fun _ => updates_tripCutoff x s) fun _ => .refl

theorem updates_foldLevelChange (high : Bool) (s : State) : Updates s (foldLevelChange high s) :=
  .ite (fun _ => .refl) fun _ => .of (.budget _ (fun h => h) fun _ h => h)

theorem updates_foldSettleExpiry (s : State) : Updates s (foldSettleExpiry s) :=
  .ite (fun _ => (Updates.of (.budget { s.budget with fold := foldOfLevel s.budget.foldHigh, foldWait := none } (fun h => h)
    fun _ h => h)).trans (updates_requestPassIf _ _)) fun _ => .refl

end Sys2Proof.Machine
end

section
/-! Elementary updates of the ports, the arbiter, the reservation table and the pass. -/

namespace Sys2Proof.Machine

/-! ### Ports within their ceiling (8) -/

theorem ceilCurrent_le (P V : Nat) : ceilCurrent P V ≤ P * 1000 / V := Nat.div_mul_le_self _ 10

theorem Port.within_of_none {P : Nat} {q : Port} (h : q.held = none) (hi : q.ie = 0) : q.within P := by
  simp [Port.within, h, hi]

theorem Port.within_of_some {P : Nat} {q : Port} {h : Held} (hh : q.held = some h)
    (hst : q.st = .ready ∨ q.st = .proposed ∨ q.st = .confirming) (hi : q.ie ≤ h.i) (hc : q.ie ≤ P * 1000 / h.v) :
    q.within P := by
  simp [Port.within, hh, hst, hi, hc, or_assoc]

/-- What a port within its ceiling is: without a contract and without a current, or with both bounded. -/
theorem Port.within_cases {P : Nat} {q : Port} (h : q.within P) :
    (q.held = none ∧ q.ie = 0) ∨ ∃ c, q.held = some c ∧ (q.st = .ready ∨ q.st = .proposed ∨ q.st = .confirming) ∧ q.ie ≤ c.i ∧
      q.ie ≤ P * 1000 / c.v := by
  cases hq : q.held with
  | none => simp_all [Port.within]
  | some c => simp_all [Port.within, and_assoc, or_assoc]

/-- A port in another state holds no contract. -/
theorem Port.held_none_of_within {P : Nat} {q : Port} (h : q.within P)
    (hst : ¬(q.st = .ready ∨ q.st = .proposed ∨ q.st = .confirming)) : q.held = none ∧ q.ie = 0 := by
  rcases Port.within_cases h with h | ⟨c, -, h, -⟩
  · exact h
  · exact absurd h hst

/-- A port step from a port within its ceiling to one within it. -/
def stepsWithin (P : Nat) (q : Port) (w : PortStep) : Prop := q.within P → w.port.within P

theorem stepsWithin_rejectPort (P : Nat) (c : RejCause) (q : Port) : stepsWithin P q (rejectPort c q) :=
  fun _ => Port.within_of_none rfl rfl

theorem stepsWithin_takeContract (P : Nat) (h : Held) (q : Port) : stepsWithin P q (takeContract P h q) := fun _ =>
  Port.within_of_some rfl (.inl rfl) (Nat.min_le_left _ _) ((Nat.min_le_right _ _).trans (ceilCurrent_le _ _))

/-- A port that keeps its contract and its current, in a state that may hold a contract. -/
theorem stepsWithin_keep {P : Nat} {q : Port} {w : PortStep}
    (hst : w.port.st = .ready ∨ w.port.st = .proposed ∨ w.port.st = .confirming)
    (hh : w.port.held = q.held) (hi : w.port.ie = q.ie) : stepsWithin P q w := by
  intro h
  rcases Port.within_cases h with ⟨hn, h0⟩ | ⟨c, hc, -, hle, hce⟩
  · exact Port.within_of_none (hh.trans hn) (hi.trans h0)
  · exact Port.within_of_some (hh.trans hc) hst (by rw [hi]; exact hle) (by rw [hi]; exact hce)

/-- A port that keeps state, contract and current. -/
theorem Port.within_congr {P : Nat} {q q' : Port} (hst : q'.st = q.st) (hh : q'.held = q.held) (hi : q'.ie = q.ie)
    (h : q.within P) : q'.within P := by
  rcases Port.within_cases h with ⟨hn, h0⟩ | ⟨c, hc, hs, hle, hce⟩
  · exact Port.within_of_none (hh.trans hn) (hi.trans h0)
  · exact Port.within_of_some (hh.trans hc) (by rwa [hst]) (by rw [hi]; exact hle) (by rw [hi]; exact hce)

theorem stepsWithin_classify (P : Nat) (l : Limits) (q : Port) : stepsWithin P q (classify P l q) := by
  unfold classify
  split
  · exact stepsWithin_rejectPort P _ q
  · split
    · exact stepsWithin_rejectPort P _ q
    · exact stepsWithin_takeContract P _ q

theorem stepsWithin_propose (P : Nat) (r : Proposal) (q : Port) : stepsWithin P q (propose r q) :=
  stepsWithin_keep (.inr (.inl rfl)) rfl rfl

theorem stepsWithin_takeResult (P : Nat) (res : Option Proposal) (q : Port) : stepsWithin P q (takeResult res q) := by
  unfold takeResult
  split
  · exact stepsWithin_rejectPort P _ q
  · split
    · next heq =>
      intro h
      simp only [equalsHeld, Option.any_eq_true, Bool.and_eq_true, beq_iff_eq] at heq
      obtain ⟨c, hc, hv, hi⟩ := heq
      rcases Port.within_cases h with ⟨hn, -⟩ | ⟨c', hc', -, hle, hce⟩
      · rw [hc] at hn; cases hn
      · rw [hc] at hc'
        cases hc'
        exact Port.within_of_some rfl (.inl rfl) (hi ▸ hle) (hv ▸ hce)
    · split
      · exact fun h => h
      · exact stepsWithin_propose P _ q

theorem stepsWithin_attachTest {P : Nat} {q : Port} (hst : q.st = .detached) : stepsWithin P q (attachTest q) := by
  intro h
  obtain ⟨hn, h0⟩ := Port.held_none_of_within h (by simp [hst])
  unfold attachTest
  extract_lets n
  split <;> exact Port.within_of_none hn h0

theorem stepsWithin_detachTest (P : Nat) (q : Port) : stepsWithin P q (detachTest q) := by
  intro h
  unfold detachTest
  extract_lets n
  split
  · exact Port.within_of_none rfl rfl
  · exact Port.within_congr rfl rfl rfl h

theorem stepsWithin_verifyTest (P : Nat) (q : Port) : stepsWithin P q (verifyTest P q) := by
  unfold verifyTest
  split
  · split
    · exact stepsWithin_takeContract P _ _
    · exact fun h => h
  · exact fun h => h

theorem stepsWithin_overvoltageTest (P : Nat) (q : Port) : stepsWithin P q (overvoltageTest P q) := by
  intro h
  unfold overvoltageTest
  split
  · exact h
  · extract_lets n
    split
    · exact Port.within_of_none rfl rfl
    · exact stepsWithin_verifyTest P _ (Port.within_congr rfl rfl rfl h)

/-- The tests of a sample, one after the other (R130, R131, R151). -/
theorem stepsWithin_sampleTests (P : Nat) (q : Port) : stepsWithin P q (sampleTests P q) := by
  intro h
  refine stepsWithin_overvoltageTest P _ ?_
  split
  · next hst => exact stepsWithin_attachTest hst h
  · exact stepsWithin_detachTest P q h

theorem stepsWithin_verifyDecision (P : Nat) (l : Limits) (q : Port) : stepsWithin P q (verifyDecision P l q) := by
  unfold verifyDecision
  split
  · exact stepsWithin_keep (.inl rfl) rfl rfl
  · split
    · exact stepsWithin_takeContract P _ q
    · exact stepsWithin_rejectPort P _ q

/-- A port whose current is bounded by its held contract, whatever the ceiling. -/
def Port.sound (q : Port) : Prop :=
  (q.held = none ∧ q.ie = 0) ∨ ∃ c, q.held = some c ∧ (q.st = .ready ∨ q.st = .proposed ∨ q.st = .confirming) ∧ q.ie ≤ c.i

theorem Port.sound_of_within {P : Nat} {q : Port} (h : q.within P) : q.sound := by
  rcases Port.within_cases h with h | ⟨c, hc, hs, hi, -⟩
  · exact .inl h
  · exact .inr ⟨c, hc, hs, hi⟩

/-- Capping Ie brings a port within its ceiling (R142, step 1). -/
theorem within_capIe (P : Nat) {q : Port} (h : q.sound) : (capIe P q).within P := by
  rcases h with ⟨hn, h0⟩ | ⟨c, hc, hs, hi⟩
  · simp [capIe, hn, Port.within, h0]
  · simp only [capIe, hc]
    exact Port.within_of_some rfl hs ((Nat.min_le_left _ _).trans hi) ((Nat.min_le_right _ _).trans (ceilCurrent_le _ _))

theorem within_requalify (P : Nat) (l : Limits) {q : Port} (h : q.within P) : (requalify P l q).within P := by
  rcases Port.within_cases h with ⟨hn, -⟩ | ⟨c, hc, hs, -, hce⟩
  · simpa [requalify, hn] using h
  · unfold requalify
    simp only [hc]
    split
    · exact Port.within_of_some rfl hs (Nat.min_le_right _ _) ((Nat.min_le_left _ _).trans hce)
    · exact h

/-- Re-evaluation brings a port within the ceiling in force (R142). -/
theorem within_reevaluate (P : Nat) (l : Limits) {q : Port} (h : q.sound) : (reevaluate P l q).port.within P := by
  have hq := within_requalify P l (within_capIe P h)
  unfold reevaluate
  split
  · exact Port.within_of_none rfl rfl
  · unfold reselect
    split
    · exact hq
    · exact stepsWithin_takeResult P _ _ hq

theorem stepsWithin_reevaluate (P : Nat) (l : Limits) (q : Port) : stepsWithin P q (reevaluate P l q) :=
  fun h => within_reevaluate P l (Port.sound_of_within h)

/-! ### Ports and arbiter (8, 9) -/

theorem updates_stepPort (p : PortId) (w : PortStep) (s : State) (h : stepsWithin (portCeiling s p) (s.port.get p) w) :
    Updates s (stepPort p w s) :=
  .of (.port p w h)

theorem updates_inputSample (p : PortId) (vin : Int) (s : State) : Updates s (inputSample p vin s) := by
  refine (updates_slots { s.slots with input := s.slots.input.set p Config.slotPeriod } s).trans (updates_stepPort p _ _ fun h => ?_)
  exact stepsWithin_sampleTests _ _ (Port.within_congr rfl rfl rfl h)

theorem updates_attachRun (p : PortId) (s : State) : Updates s (attachRun p s) := by
  refine .ite (fun hst => updates_stepPort p _ s fun h => ?_) fun _ => .refl
  obtain ⟨hn, h0⟩ := Port.held_none_of_within h (by simp [hst])
  exact Port.within_of_none hn h0

theorem updates_detachRun (p : PortId) (s : State) : Updates s (detachRun p s) :=
  .ite (fun _ => .refl) fun _ => updates_stepPort p _ s fun _ => Port.within_of_none rfl rfl

theorem updates_inputOvervoltageRun (p : PortId) (s : State) : Updates s (inputOvervoltageRun p s) :=
  .ite (fun _ => .refl) fun _ => updates_stepPort p _ s fun _ => Port.within_of_none rfl rfl

theorem updates_offerWindowExpiry (p : PortId) (s : State) : Updates s (offerWindowExpiry p s) :=
  .ite (fun _ => updates_stepPort p _ s (stepsWithin_classify _ _ _)) fun _ => .refl

theorem updates_confirmExpiry (p : PortId) (s : State) : Updates s (confirmExpiry p s) := by
  refine .ite (fun _ => .ite (fun _ => updates_stepPort p _ s (stepsWithin_keep (.inl rfl) rfl rfl)) fun _ =>
    updates_stepPort p _ s fun h => ?_) fun _ => .refl
  exact stepsWithin_classify _ _ _ (Port.within_congr rfl rfl rfl h)

theorem updates_verifyExpiry (p : PortId) (s : State) : Updates s (verifyExpiry p s) :=
  .ite (fun _ => updates_stepPort p _ s (stepsWithin_verifyDecision _ _ _)) fun _ => .refl

theorem updates_reevaluatePort (p : PortId) (s : State) : Updates s (reevaluatePort p s) :=
  .ite (fun _ => (updates_stepPort p _ s (stepsWithin_reevaluate _ _ _)).trans (updates_requestPassIf _ _)) fun _ => .refl

theorem updates_reevaluateBoth (s : State) : Updates s (reevaluateBoth s) :=
  .ite (fun _ => (updates_reevaluatePort .coil s).trans (updates_reevaluatePort .cable _)) fun _ =>
    (updates_reevaluatePort .cable s).trans (updates_reevaluatePort .coil _)

/-- The droop step as a port step: it moves Ie alone (R141). -/
theorem updates_droopStep (s : State) : Updates s (droopStep s) := by
  unfold droopStep
  split
  · exact .refl
  · next p hp =>
    dsimp only
    split
    · exact .refl
    · next h hh =>
      have key : ∀ ie : Nat, portStepped p ⟨{ s.port.get p with ie := ie }, []⟩ s =
          { s with port := s.port.set p { s.port.get p with ie := ie } } := fun ie => by
        simp [portStepped, contractOf]
      rw [← key, ← stepPort_of_same_eligibility p _ s rfl]
      refine updates_stepPort p _ s fun hw => ?_
      rcases Port.within_cases hw with ⟨hn, -⟩ | ⟨c, hc, hs, hle, hce⟩
      · rw [hh] at hn; cases hn
      · rw [hh] at hc
        cases hc
        have hceil := ceilCurrent_le (portCeiling s p) h.v
        have hdroop : droopIe (portCeiling s p) s.lim.droopMargin h (s.port.get p).vin (s.port.get p).ie ≤ (s.port.get p).ie ∨
            droopIe (portCeiling s p) s.lim.droopMargin h (s.port.get p).vin (s.port.get p).ie ≤
              min h.i (ceilCurrent (portCeiling s p) h.v) := by
          unfold droopIe
          split
          · left; split <;> omega
          · split
            · right; exact Nat.min_le_left _ _
            · left; exact Nat.le_refl _
        refine Port.within_of_some hh hs ?_ ?_ <;> dsimp only <;> omega

/-! ### The reservation table (1) -/

/-- A record in its slot, taken apart: the field table of section 1.2. -/
theorem tableOk_iff (s : State) :
    tableOk s = true ↔ (∀ k r, recordOf s k = some r → recordOk s.resv.grants s.resv.arrivals k r = true) ∧
      s.resv.arrivals ≤ 65535 ∧ s.resv.grants ≤ 65535 := by
  simp [tableOk, slotOk, Option.all_eq_true, and_assoc]

/-- The stamps of a record stay in range as the counters rise (R3). -/
theorem recordOk_mono {g g' a a' : Nat} {k : Fin 24} {r : Record} (hg : g ≤ g') (ha : a ≤ a') (h : recordOk g a k r) :
    recordOk g' a' k r := by
  simp only [recordOk, Bool.and_eq_true, decide_eq_true_eq, Option.all_eq_true] at h ⊢
  obtain ⟨⟨⟨⟨hrest, harr⟩, hstamp⟩, hpres⟩, hdir⟩ := h
  exact ⟨⟨⟨⟨hrest, harr.trans ha⟩, fun x hx => ⟨(hstamp x hx).1, (hstamp x hx).2.trans hg⟩⟩, hpres⟩, hdir⟩

theorem nextStamp_le {n : Nat} (h : n ≤ 65535) : nextStamp n ≤ 65535 := by
  unfold nextStamp Config.stampMax
  split <;> omega

theorem one_le_nextStamp (n : Nat) : 1 ≤ nextStamp n := by
  unfold nextStamp Config.stampMax
  split <;> omega

/-- A well-formed record put in a slot, with the counters no lower, leaves a well-formed table. -/
theorem tableOk_put {s : State} {r : Record} {k : Fin 24} {grants arrivals : Nat} (h : tableOk s) (hg : s.resv.grants ≤ grants)
    (hg' : grants ≤ 65535) (ha : s.resv.arrivals ≤ arrivals) (ha' : arrivals ≤ 65535) (hr : recordOk grants arrivals k r) :
    tableOk { s with resv := ⟨s.resv.slots.set k { slotOf s k with record := some r }, arrivals, grants⟩ } := by
  obtain ⟨hrec, -, -⟩ := (tableOk_iff s).mp h
  refine (tableOk_iff _).mpr ⟨fun j q hq => ?_, ha', hg'⟩
  have hput : recordOf { s with resv := ⟨s.resv.slots.set k { slotOf s k with record := some r }, arrivals, grants⟩ } j =
      recordOf (putRecord k r s) j := rfl
  rw [hput, recordOf_putRecord] at hq
  split at hq
  · next hj =>
    cases hq
    exact hj ▸ hr
  · exact recordOk_mono hg ha (hrec j q hq)

/-- A record put in a slot that holds it well-formed. -/
theorem updates_putRecord (k : Fin 24) (r : Record) (s : State)
    (h : tableOk s → recordOk s.resv.grants s.resv.arrivals k r) : Updates s (putRecord k r s) := by
  refine .of (.table _ fun _ ht => ?_)
  obtain ⟨-, ha, hg⟩ := (tableOk_iff s).mp ht
  exact tableOk_put ht (Nat.le_refl _) hg (Nat.le_refl _) ha (h ht)

theorem updates_freeSlot (k : Fin 24) (s : State) : Updates s (freeSlot k s) := by
  refine .of (.table _ fun _ ht => ?_)
  obtain ⟨hrec, ha, hg⟩ := (tableOk_iff s).mp ht
  refine (tableOk_iff _).mpr ⟨fun j q hq => ?_, ha, hg⟩
  have hfree := (recordOf_freeSlot k j s).symm.trans hq
  split at hfree
  · cases hfree
  · exact hrec j q hfree

/-- The field table of section 1.2, a row each. -/
structure Record.Fits (g a : Nat) (k : Fin 24) (r : Record) : Prop where
  slot : if k = 0 then r.owner = 15 ∧ r.prio = 0 ∧ r.kind = .steady ∧ r.lifeSet = 0 ∧ r.waitSet = 0 ∧ r.mark = false
    else r.owner ≤ 14
  prio : r.prio ≤ 7
  draw : 1 ≤ r.draw ∧ r.draw ≤ 20000
  pendDraw : ∀ p, r.pendDraw = some p → r.st = .granted ∧ r.draw < p ∧ p ≤ 20000
  lifeSet : r.lifeSet ≤ 3600
  lifeRem : r.lifeRem.isSome = true ↔ r.lifeSet ≠ 0 ∧ r.live = true
  lifeRem_le : ∀ n, r.lifeRem = some n → n ≤ r.lifeSet * 1000
  burstSet : if r.kind = .burst then 1 ≤ r.burstSet ∧ r.burstSet ≤ 2000 else r.burstSet = 0
  burstRem : r.burstRem.isSome = true ↔ r.kind = .burst ∧ r.live = true
  burstRem_le : ∀ n, r.burstRem = some n → n ≤ r.burstSet
  burstTot : r.burstTot.isSome = true ↔ r.kind = .burst
  burstTot_le : ∀ n, r.burstTot = some n → n ≤ 5000
  waitSet : r.waitSet ≤ 60000
  waitRem : r.waitRem.isSome = true ↔ r.waitSet ≠ 0 ∧ r.live = true ∧ r.st ≠ .granted
  waitRem_le : ∀ n, r.waitRem = some n → n ≤ r.waitSet
  arrival : 1 ≤ r.arrival ∧ r.arrival ≤ a
  stamp : ∀ n, r.grantStamp = some n → 1 ≤ n ∧ n ≤ g
  stamped : r.grantStamp.isSome = true ∨ r.st ≠ .granted
  dir : r.dir.isSome = true ↔ k = 0

theorem recordOk_iff {g a : Nat} {k : Fin 24} {r : Record} : recordOk g a k r = true ↔ r.Fits g a k := by
  have hb (b c : Bool) : (b == c) = true ↔ (b = true ↔ c = true) := by cases b <;> cases c <;> simp
  have e1 : ((if k = 0 then r.owner == 15 && r.prio == 0 && r.kind == .steady && r.lifeSet == 0 && r.waitSet == 0 && !r.mark
      else decide (r.owner ≤ 14)) = true) ↔
      (if k = 0 then r.owner = 15 ∧ r.prio = 0 ∧ r.kind = .steady ∧ r.lifeSet = 0 ∧ r.waitSet = 0 ∧ r.mark = false
        else r.owner ≤ 14) := by
    split <;> simp [and_assoc]
  have e2 : ((if r.kind = .burst then decide (1 ≤ r.burstSet) && decide (r.burstSet ≤ 2000) else r.burstSet == 0) = true) ↔
      (if r.kind = .burst then 1 ≤ r.burstSet ∧ r.burstSet ≤ 2000 else r.burstSet = 0) := by
    split <;> simp
  simp only [recordOk, presentIff, Bool.and_eq_true, e1, e2, hb, decide_eq_true_eq, Option.all_eq_true, bne_iff_ne, ne_eq,
    beq_iff_eq, Bool.or_eq_true, and_assoc]
  constructor
  · rintro ⟨slot, prio, lo, hi, pend, lifeSet, lifeRem, lifeLe, burstSet, burstRem, burstLe, burstTot, totLe, waitSet, waitRem,
      waitLe, arrLo, arrHi, stamp, stamped, dir⟩
    exact ⟨slot, prio, ⟨lo, hi⟩, pend, lifeSet, lifeRem, lifeLe, burstSet, burstRem, burstLe, burstTot, totLe, waitSet, waitRem,
      waitLe, ⟨arrLo, arrHi⟩, stamp, stamped, dir⟩
  · rintro ⟨slot, prio, ⟨lo, hi⟩, pend, lifeSet, lifeRem, lifeLe, burstSet, burstRem, burstLe, burstTot, totLe, waitSet, waitRem,
      waitLe, ⟨arrLo, arrHi⟩, stamp, stamped, dir⟩
    exact ⟨slot, prio, lo, hi, pend, lifeSet, lifeRem, lifeLe, burstSet, burstRem, burstLe, burstTot, totLe, waitSet, waitRem,
      waitLe, arrLo, arrHi, stamp, stamped, dir⟩

end Sys2Proof.Machine
end

section
/-! The updates of the reservation table: every verdict, end and command leaves the records of section 1.2. -/

namespace Sys2Proof.Machine

/-! ### Records under their verdicts, ends and commands (1.3, 1.4, 1.6) -/

theorem Record.live_iff (r : Record) : r.live = true ↔ ∀ c, r.st ≠ .ended c := by
  unfold Record.live
  cases r.st <;> simp

theorem isSome_restarted (n scale : Nat) : (restarted n scale).isSome = true ↔ n ≠ 0 := by
  unfold restarted
  split <;> simp_all

theorem le_of_restarted {n scale m : Nat} (h : restarted n scale = some m) : m ≤ n * scale := by
  unfold restarted at h
  split at h <;> simp_all

section
variable {g a : Nat} {k : Fin 24} {r : Record}

/-- The change mark is set on host slots alone (R25). -/
theorem Record.Fits.marked (h : r.Fits g a k) : (r.marked k).Fits g a k where
  __ := h
  slot := by
    have := h.slot
    split <;> simp_all [Record.marked]

theorem Record.Fits.finish (c : EndCause) (h : r.Fits g a k) : (r.finish k c).Fits g a k :=
  .marked
    { __ := h
      pendDraw := by simp
      lifeRem := by simp [Record.live]
      lifeRem_le := by simp
      burstRem := by simp [Record.live]
      burstRem_le := by simp
      waitRem := by simp [Record.live]
      waitRem_le := by simp
      stamped := by simp }

theorem Record.Fits.draw_getD (h : r.Fits g a k) : 1 ≤ r.pendDraw.getD r.draw ∧ r.pendDraw.getD r.draw ≤ 20000 := by
  have hd := h.draw
  cases hp : r.pendDraw with
  | none => exact hd
  | some p =>
    have := h.pendDraw p hp
    simp only [Option.getD_some]
    omega

theorem Record.Fits.shed (hst : r.st = .granted) (h : r.Fits g a k) : (r.shed k).Fits g a k :=
  .marked
    { __ := h
      draw := h.draw_getD
      pendDraw := by simp
      lifeRem := by simpa [Record.live, hst] using h.lifeRem
      burstRem := by simpa [Record.live, hst] using h.burstRem
      waitRem := by by_cases hw : r.waitSet = 0 <;> simp [Record.live, hw]
      waitRem_le := by by_cases hw : r.waitSet = 0 <;> simp [hw]
      stamped := by simp }

theorem Record.Fits.grant {stamp : Nat} (hl : r.live) (hs : 1 ≤ stamp ∧ stamp ≤ g) (h : r.Fits g a k) :
    (r.grant k stamp).Fits g a k := by
  unfold Record.grant
  split
  · exact .marked
      { __ := h
        draw := h.draw_getD
        pendDraw := by simp
        stamp := by simpa using hs
        stamped := by simp }
  · exact .marked
      { __ := h
        pendDraw := fun p hp => ⟨rfl, (h.pendDraw p hp).2⟩
        lifeRem := h.lifeRem.trans (and_congr_right fun _ => ⟨fun _ => rfl, fun _ => hl⟩)
        burstRem := h.burstRem.trans (and_congr_right fun _ => ⟨fun _ => rfl, fun _ => hl⟩)
        waitRem := by simp
        waitRem_le := by simp
        stamp := by simpa using hs
        stamped := by simp }

theorem Record.Fits.noRoom (hst : r.st = .pending) (h : r.Fits g a k) :
    ({ r with st := .waiting .noRoom }.marked k).Fits g a k :=
  .marked
    { __ := h
      pendDraw := fun p hp => absurd (h.pendDraw p hp).1 (by simp [hst])
      lifeRem := by simpa [Record.live, hst] using h.lifeRem
      burstRem := by simpa [Record.live, hst] using h.burstRem
      waitRem := by simpa [Record.live, hst] using h.waitRem
      stamped := by simp }

theorem Record.Fits.clearMark (h : r.Fits g a k) : ({ r with mark := false } : Record).Fits g a k where
  __ := h
  slot := by
    have := h.slot
    split <;> simp_all

theorem Record.Fits.adjust {d : Nat} (hd : 1 ≤ d ∧ d ≤ 20000) (h : r.Fits g a k) : (r.adjust d).Fits g a k := by
  unfold Record.adjust
  split
  · next hst =>
    split
    · exact { __ := h, draw := hd, pendDraw := by simp }
    · split
      · exact { __ := h, pendDraw := by simp }
      · exact { __ := h, pendDraw := fun p hp => by simp at hp; exact ⟨hst, by dsimp only; omega, by omega⟩ }
  · next hst => exact { __ := h, draw := hd, pendDraw := fun p hp => absurd (h.pendDraw p hp).1 hst }

/-- The lifetime and the wait restarted at their settings (R10). -/
theorem Record.Fits.restart (hl : r.live) (hst : r.st ≠ .granted) (h : r.Fits g a k) :
    ({ r with lifeRem := restarted r.lifeSet 1000, waitRem := restarted r.waitSet 1 } : Record).Fits g a k where
  __ := h
  lifeRem := (isSome_restarted _ _).trans (by simp; exact fun _ => hl)
  lifeRem_le := fun _ => le_of_restarted
  waitRem := (isSome_restarted _ _).trans (by simp; exact fun _ => ⟨hl, hst⟩)
  waitRem_le := fun n hn => by simpa using le_of_restarted hn

theorem Record.Fits.renew (h : r.Fits g a k) : r.renew.Fits g a k := by
  unfold Record.renew
  split <;> rename_i hst
  · have hl : r.live = true := by simp [Record.live, hst]
    split
    · next hk =>
      exact
        { __ := h
          burstRem := ⟨fun _ => ⟨hk, hl⟩, fun _ => rfl⟩
          burstRem_le := fun n hn => by simp at hn; exact hn.ge }
    · exact
        { __ := h
          lifeRem := (isSome_restarted _ _).trans (by simp; exact fun _ => hl)
          lifeRem_le := fun _ => le_of_restarted }
  · exact h.restart (by simp [Record.live, hst]) (by simp [hst])
  · exact h.restart (by simp [Record.live, hst]) (by simp [hst])
  · exact h

theorem le_of_downBy {n m : Nat} {t : Option Nat} (h : downBy n t = some m) {b : Nat} (hb : ∀ x, t = some x → x ≤ b) : m ≤ b := by
  obtain ⟨x, hx, rfl⟩ := Option.map_eq_some_iff.mp h
  exact (Nat.sub_le _ _).trans (hb x hx)

theorem Record.Fits.tick (h : r.Fits g a k) : r.tick.Fits g a k := by
  unfold Record.tick
  split <;> rename_i hst
  · exact
      { __ := h
        lifeRem := .trans (by simp [downBy]) h.lifeRem
        lifeRem_le := fun n hn => le_of_downBy hn h.lifeRem_le
        burstRem := .trans (by simp [downBy]) h.burstRem
        burstRem_le := fun n hn => le_of_downBy hn h.burstRem_le
        burstTot := by simpa using h.burstTot
        burstTot_le := fun n hn => by
          obtain ⟨x, -, rfl⟩ := Option.map_eq_some_iff.mp hn
          exact Nat.min_le_left _ _ }
  · exact
      { __ := h
        lifeRem := .trans (by simp [downBy]) h.lifeRem
        lifeRem_le := fun n hn => le_of_downBy hn h.lifeRem_le
        waitRem := .trans (by simp [downBy]) h.waitRem
        waitRem_le := fun n hn => le_of_downBy hn h.waitRem_le }
  · exact
      { __ := h
        lifeRem := .trans (by simp [downBy]) h.lifeRem
        lifeRem_le := fun n hn => le_of_downBy hn h.lifeRem_le
        waitRem := .trans (by simp [downBy]) h.waitRem
        waitRem_le := fun n hn => le_of_downBy hn h.waitRem_le }
  · exact h

theorem ReserveArgs.ok_iff (q : ReserveArgs) :
    q.ok = true ↔ q.owner ≤ 14 ∧ q.prio ≤ 7 ∧ 1 ≤ q.draw ∧ q.draw ≤ 20000 ∧ q.life ≤ 3600 ∧ q.wait ≤ 60000 ∧
      if q.kind = .burst then 1 ≤ q.burst ∧ q.burst ≤ 2000 else q.burst = 0 := by
  cases hk : q.kind <;> simp [ReserveArgs.ok, hk, and_assoc]

theorem fits_newRecord {q : ReserveArgs} {arrival : Nat} (hk : k ≠ 0) (hq : q.ok) (ha : 1 ≤ arrival ∧ arrival ≤ a) :
    (newRecord q arrival).Fits g a k := by
  obtain ⟨howner, hprio, hlo, hhi, hlife, hwait, hburst⟩ := (ReserveArgs.ok_iff q).mp hq
  exact
    { slot := by simp [hk, newRecord, howner]
      prio := hprio
      draw := ⟨hlo, hhi⟩
      pendDraw := by simp [newRecord]
      lifeSet := hlife
      lifeRem := by by_cases h : q.life = 0 <;> simp [newRecord, Record.live, h]
      lifeRem_le := by by_cases h : q.life = 0 <;> simp [newRecord, h]
      burstSet := hburst
      burstRem := by by_cases h : q.kind = .burst <;> simp [newRecord, Record.live, h]
      burstRem_le := by by_cases h : q.kind = .burst <;> simp [newRecord, h]
      burstTot := by by_cases h : q.kind = .burst <;> simp [newRecord, h]
      burstTot_le := by by_cases h : q.kind = .burst <;> simp [newRecord, h]
      waitSet := hwait
      waitRem := by by_cases h : q.wait = 0 <;> simp [newRecord, Record.live, h]
      waitRem_le := by by_cases h : q.wait = 0 <;> simp [newRecord, h]
      arrival := ha
      stamp := by simp [newRecord]
      stamped := by simp [newRecord]
      dir := by simp [newRecord, hk] }

theorem fits_equalizingRecord {draw arrival : Nat} (d : Dir) (hd : 1 ≤ draw ∧ draw ≤ 20000)
    (ha : 1 ≤ arrival ∧ arrival ≤ a) : (equalizingRecord draw arrival d).Fits g a 0 := by
  constructor <;> simp [equalizingRecord, hd, ha]

end
end Sys2Proof.Machine
end

section
/-! The updates of the table's commands and ends, of a pass and of the control link. -/

namespace Sys2Proof.Machine

/-! ### Records put back in their slots (1) -/

theorem fits_of_tableOk {s : State} {k : Fin 24} {r : Record} (h : tableOk s) (hr : recordOf s k = some r) :
    r.Fits s.resv.grants s.resv.arrivals k :=
  recordOk_iff.mp (((tableOk_iff s).mp h).1 k r hr)

/-- A record replaced in its slot by one of the field table. -/
theorem updates_replace {s : State} {k : Fin 24} {r q : Record} (hr : recordOf s k = some r)
    (h : r.Fits s.resv.grants s.resv.arrivals k → q.Fits s.resv.grants s.resv.arrivals k) : Updates s (putRecord k q s) :=
  updates_putRecord k q s fun ht => recordOk_iff.mpr (h (fits_of_tableOk ht hr))

/-- A record created with the next arrival stamp (R3, R7, R18). -/
theorem updates_create (k : Fin 24) (q : Record) (s : State)
    (h : limitsOk s.lim → q.Fits s.resv.grants (nextStamp s.resv.arrivals) k) :
    Updates s (putRecord k q (takeArrivalStamp s)) := by
  refine .of (.table ⟨s.resv.slots.set k { slotOf s k with record := some q }, nextStamp s.resv.arrivals, s.resv.grants⟩
    fun hl ht => ?_)
  obtain ⟨-, ha, hg⟩ := (tableOk_iff s).mp ht
  exact tableOk_put ht (Nat.le_refl _) hg (le_nextStamp _) (nextStamp_le ha) (recordOk_iff.mpr (h hl))

theorem updates_endRecord (k : Fin 24) (c : EndCause) (s : State) : Updates s (endRecord k c s) := by
  unfold endRecord
  split
  · exact .refl
  · next r hr =>
    exact .ite (fun _ => (updates_replace hr (Record.Fits.finish c)).trans (updates_requestPassIf _ _)) fun _ => .refl

theorem updates_expireWhere (due : Record → Bool) (k : Fin 24) (c : EndCause) (s : State) :
    Updates s (expireWhere due k c s) := by
  unfold expireWhere
  split
  · exact .refl
  · exact .ite (fun _ => updates_endRecord k c s) fun _ => .refl

theorem updates_abandon (k : Fin 24) (s : State) : Updates s (abandon k s) := by
  unfold abandon
  split
  · exact .refl
  · exact .ite (fun _ => updates_endRecord k _ s) fun _ => .refl

theorem updates_silenceRelease (s : State) : Updates s (silenceRelease s) := by
  have abandoned (ks : List (Fin 24)) (s : State) : Updates s (ks.foldl (fun t k => abandon k t) s) := by
    induction ks generalizing s with
    | nil => exact .refl
    | cons k ks ih => exact (updates_abandon k s).trans (ih _)
  exact (abandoned _ s).trans (updates_latch _ _)

/-! ### A pass (2, 3) -/

/-- A single item lies in its range. -/
theorem limitsOk_item {l : Limits} (h : limitsOk l) (i : Item) : (itemRange l i).1 ≤ l.get i ∧ l.get i ≤ (itemRange l i).2 := by
  simp only [limitsOk, Bool.and_eq_true, List.all_eq_true] at h
  have hmem : i ∈ allItems := by
    cases i with
    | chgTarget x | fastI x | preI x | termI x | hardDisI x | disRated x | cap x | chargeEn x => cases x <;> simp [allItems]
    | ceil p => cases p <;> simp [allItems]
    | _ => simp [allItems]
  simpa [inRange] using h.1.1.1.1.1.1.1.1.1.1 i hmem

theorem updates_equalizerStage (u : Nat) (s : State) : Updates s (equalizerStage u s) := by
  unfold equalizerStage
  split
  · split
    · next d _ =>
      refine updates_create 0 _ s fun hl => ?_
      have hp := limitsOk_item hl .eqPower
      simp only [itemRange, Limits.get] at hp
      exact fits_equalizingRecord d (by omega) ⟨one_le_nextStamp _, Nat.le_refl _⟩
    · exact .refl
  · exact .ite (fun _ => updates_freeSlot 0 s) fun _ => .refl

theorem updates_shedLoop (level : Int) (u n : Nat) (w : Shed) : Updates w.st (shedLoop level u n w).st := by
  induction n generalizing w with
  | zero => exact .refl
  | succ n ih =>
    unfold shedLoop
    split
    · exact .refl
    · split
      · exact .refl
      · next k r hk =>
        obtain ⟨hr, hst⟩ := firstToShed_eq_some hk
        refine Updates.trans ?_ (ih _)
        simp only [shedVerdict, hr]
        exact (updates_replace hr (Record.Fits.shed hst)).trans (updates_count _ _)

theorem updates_shedStage (level : Int) (u : Nat) (s : State) : Updates s (shedStage level u s).st := by
  have loop := updates_shedLoop level u 24 ⟨s, 0, false⟩
  unfold shedStage
  generalize shedLoop level u 24 ⟨s, 0, false⟩ = w at loop ⊢
  have latched : Updates s (if w.n = 0 then w.st else latch .shed w.st) :=
    .ite (fun _ => loop) fun _ => loop.trans (updates_latch _ _)
  exact .ite (fun _ => latched.trans (updates_latch _ _)) fun _ => latched

theorem updates_noRoomVerdict (k : Fin 24) (s : State) : Updates s (noRoomVerdict k s) := by
  unfold noRoomVerdict
  split
  · exact .refl
  · next r hr => exact .ite (fun hst => updates_replace hr (Record.Fits.noRoom hst)) fun _ => .refl

/-- A candidate is a live record (R45). -/
theorem live_of_needOf {r : Record} {n : Nat} (h : needOf r = some n) : r.live = true := by
  unfold needOf at h
  unfold Record.live
  split at h <;> simp_all

theorem updates_grantVerdict {k : Fin 24} {s : State} {r : Record} (hr : recordOf s k = some r) (hl : r.live) :
    Updates s (grantVerdict k s) := by
  simp only [grantVerdict, hr]
  refine .of (.table ⟨s.resv.slots.set k { slotOf s k with record := some (r.grant k (nextStamp s.resv.grants)) },
    s.resv.arrivals, nextStamp s.resv.grants⟩ fun _ ht => ?_)
  obtain ⟨hrec, ha, hg⟩ := (tableOk_iff s).mp ht
  refine tableOk_put ht (le_nextStamp _) (nextStamp_le hg) (Nat.le_refl _) ha (recordOk_iff.mpr ?_)
  exact (recordOk_iff.mp (recordOk_mono (le_nextStamp _) (Nat.le_refl _) (hrec k r hr))).grant hl
    ⟨one_le_nextStamp _, Nat.le_refl _⟩

theorem updates_walkStep {level : Int} {u : Nat} {w : Walk} {c : Candidate} (hc : candidateAt w.st c.slot = some c) :
    Updates w.st (walkStep level u w c).st := by
  obtain ⟨-, r, hr, hn⟩ := candidateAt_eq_some hc
  unfold walkStep
  split
  · exact updates_noRoomVerdict _ _
  · split
    · exact updates_grantVerdict hr (live_of_needOf hn)
    · exact updates_noRoomVerdict _ _

theorem updates_walk {level : Int} {u : Nat} (cs : List Candidate) (w : Walk)
    (hdistinct : cs.Pairwise fun a b => a.slot ≠ b.slot) (hcs : ∀ c ∈ cs, candidateAt w.st c.slot = some c) :
    Updates w.st (cs.foldl (walkStep level u) w).st := by
  induction cs generalizing w with
  | nil => exact .refl
  | cons c cs ih =>
    obtain ⟨hc, hcs⟩ := List.forall_mem_cons.mp hcs
    obtain ⟨hne, hdistinct⟩ := List.pairwise_cons.mp hdistinct
    refine (updates_walkStep hc).trans (ih _ hdistinct fun d hd => ?_)
    rw [candidateAt_congr (recordOf_walkStep_of_ne (hne d hd).symm)]
    exact hcs d hd

theorem updates_admitStage (level : Int) (u : Nat) (s : State) : Updates s (admitStage level u s).st :=
  updates_walk (candidates s) ⟨s, none, 0⟩ (candidates_distinct s) fun _ hc => candidateAt_of_mem_candidates hc

theorem transferSplit_st (c : Capability) (N : Int) (e : Nat) (d : Dir) (s : State) : (transferSplit c N e d s).st = s := by
  cases d <;> rfl

/-- The split stage frees slot 0 or leaves the state alone (R55). -/
theorem splitStage_st (c : Capability) (u : Nat) (s : State) :
    (splitStage c u s).st = s ∨ (splitStage c u s).st = freeSlot 0 s := by
  unfold splitStage
  extract_lets N e
  split
  · left
    unfold plainSplit
    split <;> rfl
  · split
    · exact .inr rfl
    · exact .inl (transferSplit_st ..)

theorem updates_splitStage (c : Capability) (u : Nat) (s : State) : Updates s (splitStage c u s).st := by
  rcases splitStage_st c u s with h | h <;> rw [h]
  · exact .refl
  · exact updates_freeSlot 0 s

/-- Publishing leaves no mark and no request delay, and no input command where S is 0 (R28, R48, R63). -/
theorem updates_publishStage (c : Capability) (u shed grants : Nat) (o : SplitOut) (h : activePort o.st = none → c.S = 0) :
    Updates o.st (publishStage c u shed grants o) :=
  .of (.budget _ (fun _ => by simp [requestOk]) fun ha _ => by simp [inputCommand, h ha])

theorem sameButTable_arb {s t : State} (h : sameButTable s t) : t.arb = s.arb := by
  rw [h]

/-- Without an active port there is no source allowance (R34). -/
theorem capability_S_of_no_port {s : State} (h : activePort s = none) : (capability s).S = 0 := by
  simp [capability, sourceAllowance, activeVc, h]

theorem updates_budgetPass (s : State) : Updates s (budgetPass s) := by
  unfold budgetPass
  extract_lets s0 c u w a
  refine (updates_droopStep s).trans <| (updates_equalizerStage u s0).trans <|
    (updates_shedStage _ u _).trans <| (updates_admitStage _ u w.st).trans <|
      (updates_splitStage c u a.st).trans (updates_publishStage c u _ _ _ fun ha => capability_S_of_no_port ?_)
  have harb : (splitStage c u a.st).st.arb = s0.arb :=
    sameButTable_arb <| sameButTable_trans (equalizerStage_frame u s0) <|
      sameButTable_trans (shedStage_frame _ u _) <| sameButTable_trans (admitStage_frame _ u w.st) (splitStage_frame c u a.st)
  unfold activePort at ha ⊢
  rwa [harb] at ha

theorem updates_passTimerExpiry (s : State) : Updates s (passTimerExpiry s) :=
  .ite (fun _ => updates_budgetPass s) fun _ => .refl

theorem updates_requestDelayExpiry (s : State) : Updates s (requestDelayExpiry s) :=
  .ite (fun _ => updates_budgetPass s) fun _ => .refl

/-! ### The control link (10) -/

theorem receiverOk_iff (s : State) :
    receiverOk s = true ↔ (s.link.frameTimer.isSome = true ↔ s.link.rx = .receiving) ∧
      (s.link.lselHigh = true → s.link.rx = .idle) ∧ (s.link.rstnLow = true → s.link.rx = .idle) := by
  have hb (b c : Bool) : (b == c) = true ↔ (b = true ↔ c = true) := by cases b <;> cases c <;> simp
  simp only [receiverOk, Bool.and_eq_true, Bool.or_eq_true, hb, beq_iff_eq, Bool.not_eq_true', and_assoc]
  cases s.link.lselHigh <;> cases s.link.rstnLow <;> simp

theorem updates_placeAnswer (out : Outc) (payload : List Byte) (s : State) : Updates s (placeAnswer out payload s) :=
  .of (.link _ fun h => h)

theorem updates_restartSilence (s : State) : Updates s (restartSilence s) := .of (.link _ fun h => h)

theorem updates_erredFrame (out : Outc) (s : State) : Updates s (erredFrame out s) :=
  (updates_placeAnswer _ _ s).trans <| (updates_latch _ _).trans (updates_count _ _)

theorem updates_lselFall (s : State) : Updates s (lselFall s) := by
  refine .ite (fun hhigh => .ite (fun hrstn => .of (.link _ fun h => ?_)) fun hrstn => ?_) fun _ => .refl
  · have := (receiverOk_iff s).mp h
    exact (receiverOk_iff _).mpr (by simp_all)
  · split <;> rename_i hrx
    · exact .of (.link _ fun _ => (receiverOk_iff _).mpr (by simpa [beginFrame] using hrstn))
    · exact .of (.link _ fun h => absurd (((receiverOk_iff s).mp h).2.1 hhigh) (by simpa using by simp_all))
    · exact .of (.link _ fun h => absurd (((receiverOk_iff s).mp h).2.1 hhigh) (by simpa using by simp_all))

/-- The end of a frame: LSEL high, the receiver IDLE with its timer stopped. -/
theorem receiverOk_idle {s : State} (hrx : s.link.rx = .idle) (ht : s.link.frameTimer = none) : receiverOk s :=
  (receiverOk_iff s).mpr (by simp [hrx, ht])

theorem updates_raised {s : State} (hidle : s.link.rstnLow = true ∨ s.link.rx = .idle) :
    Updates s { s with link := { s.link with lselHigh := true } } :=
  .of (.link _ fun h => by
    obtain ⟨htimer, -, hrstn⟩ := (receiverOk_iff s).mp h
    have hrx : s.link.rx = .idle := hidle.elim hrstn id
    exact (receiverOk_iff _).mpr ⟨htimer, fun _ => hrx, fun _ => hrx⟩)

theorem updates_ended (s : State) : Updates s (endFrame { s with link := { s.link with lselHigh := true } }) :=
  .of (.link { s.link with lselHigh := true, rx := .idle, frameTimer := none } fun _ => receiverOk_idle rfl rfl)

theorem updates_frameTimeout (s : State) : Updates s (frameTimeout s) := by
  refine .ite (fun hs => .trans (.of (.link _ fun h => ?_)) (updates_erredFrame _ _)) fun _ => .refl
  have := (receiverOk_iff s).mp h
  exact (receiverOk_iff _).mpr (by simp_all)

theorem updates_rstnRise (s : State) : Updates s (rstnRise s) :=
  .of (.link _ fun h => (receiverOk_iff _).mpr (by have := (receiverOk_iff s).mp h; simp_all))

theorem updates_silenceExpiry (s : State) : Updates s (silenceExpiry s) :=
  .ite (fun _ => (Updates.of (.link { s.link with silence := none } fun h => h)).trans (updates_silenceRelease _)) fun _ => .refl

end Sys2Proof.Machine
end

section
/-! The limit set: what a write leaves, item by item, and that every item stays in its range (10.5, 10.6). -/

namespace Sys2Proof.Machine

/-! ### Storing an item -/

@[simp] theorem Limits.get_put_self (l : Limits) (i : Item) (v : Nat) : (l.put i v).get i = v := by
  cases i <;> simp [Limits.get, Limits.put]

theorem Limits.get_put_of_ne (l : Limits) {i j : Item} (v : Nat) (h : j ≠ i) : (l.put i v).get j = l.get j := by
  cases i <;> cases j <;> first
    | rfl
    | exact PerCell.get_set_of_ne _ _ fun he => h (he ▸ rfl)
    | exact PerPort.get_set_of_ne _ _ fun he => h (he ▸ rfl)
    | exact absurd rfl h

theorem Limits.put_zoneEdges (l : Limits) (i : Item) (v : Nat) : (l.put i v).zoneEdges = l.zoneEdges := by cases i <;> rfl
theorem Limits.put_derate (l : Limits) (i : Item) (v : Nat) : (l.put i v).derate = l.derate := by cases i <;> rfl
theorem Limits.put_profile (l : Limits) (i : Item) (v : Nat) : (l.put i v).profile = l.profile := by cases i <;> rfl
theorem Limits.put_rest (l : Limits) (i : Item) (v : Nat) : (l.put i v).rest = l.rest := by cases i <;> rfl

/-- The range of every item but EQ_STOP is fixed (10.6). -/
theorem itemRange_congr {l l' : Limits} {i : Item} (h : i = .eqStop → l'.eqStart = l.eqStart) :
    itemRange l' i = itemRange l i := by
  cases i with
  | eqStop => simp [itemRange, h rfl]
  | ceil p => cases p <;> rfl
  | _ => rfl

theorem itemRange_le (l : Limits) (i : Item) : (itemRange l i).1 ≤ (itemRange l i).2 := by
  cases i with
  | ceil p => cases p <;> simp [itemRange]
  | _ => simp [itemRange]

/-- A clamped value lies in its range. -/
theorem clampTo_mem {r : Nat × Nat} (v : Int) (h : r.1 ≤ r.2) : r.1 ≤ clampTo r v ∧ clampTo r v ≤ r.2 := by
  have := clampInt_mem r.1 r.2 v (by omega)
  unfold clampTo
  omega

/-! ### The ranges, a row each -/

/-- The ranges of section 10.6: the single items and the four tables. -/
structure Limits.Fits (l : Limits) : Prop where
  item : ∀ i, (itemRange l i).1 ≤ l.get i ∧ l.get i ≤ (itemRange l i).2
  edges : edgesOk l.zoneEdges
  derate : ∀ z, derateRowOk (l.derate.row z)
  profile : ∀ e ∈ l.profile.toList, profileOk e
  rest : rising l.rest.toList
  restEnds : 2500 ≤ l.rest[0] ∧ l.rest[10] ≤ 4600

theorem limitsOk_iff (l : Limits) : limitsOk l = true ↔ l.Fits := by
  constructor
  · intro h
    have item := limitsOk_item h
    simp only [limitsOk, Bool.and_eq_true, List.all_eq_true, decide_eq_true_eq] at h
    obtain ⟨⟨⟨⟨⟨⟨⟨⟨⟨⟨-, edges⟩, cold⟩, cool⟩, normal⟩, warm⟩, hot⟩, profile⟩, rest⟩, lo⟩, hi⟩ := h
    exact ⟨item, edges, fun z => by cases z <;> assumption, profile, rest, lo, hi⟩
  · rintro ⟨item, edges, derate, profile, rest, lo, hi⟩
    simp only [limitsOk, Bool.and_eq_true, List.all_eq_true, decide_eq_true_eq]
    exact ⟨⟨⟨⟨⟨⟨⟨⟨⟨⟨fun i _ => by simpa [inRange] using item i, edges⟩, derate .cold⟩, derate .cool⟩, derate .normal⟩,
      derate .warm⟩, derate .hot⟩, profile⟩, rest⟩, lo⟩, hi⟩

/-- A single item replaced within its range, where EQ_START keeps EQ_STOP at 10 below it. -/
theorem Limits.Fits.put {l : Limits} (h : l.Fits) (i : Item) {c : Nat} (hc : (itemRange l i).1 ≤ c ∧ c ≤ (itemRange l i).2)
    (hi : i ≠ .eqStart) : (l.put i c).Fits where
  item j := by
    have hr : itemRange (l.put i c) j = itemRange l j :=
      itemRange_congr fun _ => l.get_put_of_ne (i := i) (j := .eqStart) c (Ne.symm hi)
    rw [hr]
    by_cases hj : j = i
    · rw [hj, Limits.get_put_self]
      exact hc
    · rw [Limits.get_put_of_ne l c hj]
      exact h.item j
  edges := by rw [Limits.put_zoneEdges]; exact h.edges
  derate := by rw [Limits.put_derate]; exact h.derate
  profile := by rw [Limits.put_profile]; exact h.profile
  rest := by rw [Limits.put_rest]; exact h.rest
  restEnds := by simpa only [Limits.put_rest] using h.restEnds

theorem Limits.Fits.putEqStart {l : Limits} (h : l.Fits) {c : Nat} (hc : 20 ≤ c ∧ c ≤ 300) :
    (lowerEqStop (l.put .eqStart c)).Fits where
  item j := by
    by_cases hj : j = .eqStart
    · subst hj
      exact hc
    · by_cases hs : j = .eqStop
      · subst hs
        exact ⟨Nat.zero_le _, Nat.min_le_right _ _⟩
      · have hget : (lowerEqStop (l.put .eqStart c)).get j = l.get j := by
          rw [← Limits.get_put_of_ne l c hj]
          exact Limits.get_put_of_ne (l.put .eqStart c) _ hs
        rw [hget, itemRange_congr (l := l) (fun he => absurd he hs)]
        exact h.item j
  edges := h.edges
  derate := h.derate
  profile := h.profile
  rest := h.rest
  restEnds := h.restEnds

theorem edgesOk_iff (e : Vector Int 4) :
    edgesOk e = true ↔ -30 ≤ e[0] ∧ e[0] + 5 ≤ e[1] ∧ e[1] + 5 ≤ e[2] ∧ e[2] + 5 ≤ e[3] ∧ e[3] ≤ 70 := by
  simp [edgesOk, and_assoc]

/-- A zone edge between its neighbours (R81). -/
theorem Limits.Fits.putEdge {l : Limits} (h : l.Fits) (k : Fin 4) (v : Int) :
    ({ l with zoneEdges := l.zoneEdges.set k (clampInt (edgeRange l k).1 (edgeRange l k).2 v) } : Limits).Fits where
  __ := h
  item i := h.item i
  edges := by
    have he := (edgesOk_iff _).mp h.edges
    have hc := clampInt_mem (edgeRange l k).1 (edgeRange l k).2 v (by fin_cases k <;> simp [edgeRange] <;> omega)
    generalize clampInt (edgeRange l k).1 (edgeRange l k).2 v = c at hc ⊢
    rw [edgesOk_iff]
    fin_cases k <;> simp [edgeRange] at hc ⊢ <;> omega

theorem Derate.row_put_self (d : Derate) (z : Zone) (c : DerateCol) (v : Nat) : (d.put z c v).row z = (d.row z).put c v := by
  cases z <;> rfl

theorem Derate.row_put_of_ne (d : Derate) {z y : Zone} (c : DerateCol) (v : Nat) (h : y ≠ z) :
    (d.put z c v).row y = d.row y := by
  cases z <;> cases y <;> first | rfl | exact absurd rfl h

theorem colRange_le (c : DerateCol) : (colRange c).1 ≤ (colRange c).2 := by cases c <;> simp [colRange]

theorem Limits.Fits.putDerate {l : Limits} (h : l.Fits) (z : Zone) (c : DerateCol) (v : Int) :
    ({ l with derate := l.derate.put z c (clampTo (colRange c) v) } : Limits).Fits where
  __ := h
  item i := h.item i
  derate y := by
    have hc := clampTo_mem v (colRange_le c)
    by_cases hy : y = z
    · have hrow := h.derate z
      rw [hy, Derate.row_put_self]
      simp only [derateRowOk, Bool.and_eq_true, decide_eq_true_eq] at hrow ⊢
      cases c <;> simp [colRange, DerateRow.put] at hc ⊢ <;> omega
    · rw [Derate.row_put_of_ne _ _ _ hy]
      exact h.derate y

theorem clampNat_mem (lo hi v : Nat) (h : lo ≤ hi) : lo ≤ clampNat lo hi v ∧ clampNat lo hi v ≤ hi := by
  rw [clampNat_eq_min_max lo hi v h]
  omega

/-- A profile entry as a write stores it (R133). -/
theorem profileOk_clampProfile (e : ProfileEntry) : profileOk (clampProfile e) := by
  have hlo := clampNat_mem 4000 16000 e.vlo (by omega)
  have hhi := clampNat_mem 4000 16000 e.vhi (by omega)
  have him := clampNat_mem 100 5000 e.imax (by omega)
  unfold profileOk clampProfile
  generalize clampNat 4000 16000 e.vlo = lo at hlo ⊢
  generalize clampNat 4000 16000 e.vhi = hi at hhi ⊢
  generalize clampNat 100 5000 e.imax = im at him ⊢
  by_cases h0 : e.imax = 0 <;> simp [h0] <;> omega

theorem Limits.Fits.putProfile {l : Limits} (h : l.Fits) (k : Fin 4) (e : ProfileEntry) :
    ({ l with profile := l.profile.set k (clampProfile e) } : Limits).Fits where
  __ := h
  item i := h.item i
  profile q hq := by
    rw [Vector.toList_set] at hq
    rcases List.mem_or_eq_of_mem_set hq with hq | rfl
    · exact h.profile q hq
    · exact profileOk_clampProfile e

theorem rising_iff (l : List Nat) : rising l = true ↔ ∀ i (h : i + 1 < l.length), l[i] < l[i + 1] := by
  induction l with
  | nil => simp [rising]
  | cons a l ih =>
    cases l with
    | nil => simp [rising]
    | cons b l =>
      rw [rising, Bool.and_eq_true, ih, decide_eq_true_eq]
      constructor
      · rintro ⟨hab, h⟩ i hi
        cases i with
        | zero => exact hab
        | succ i => exact h i (by simpa using hi)
      · intro h
        exact ⟨h 0 (by simp), fun i hi => h (i + 1) (by simpa using hi)⟩

theorem Limits.Fits.rest_lt {l : Limits} (h : l.Fits) (i : Nat) (hi : i + 1 < 11) : l.rest[i] < l.rest[i + 1] := by
  have := (rising_iff _).mp h.rest i (by simpa using hi)
  simpa using this

/-- The neighbours of a rest point leave it a span (R79). -/
theorem Limits.Fits.restRange_le {l : Limits} (h : l.Fits) (k : Fin 11) : (restRange l k).1 ≤ (restRange l k).2 := by
  have hends := h.restEnds
  have hlt := h.rest_lt
  obtain ⟨k, hk⟩ := k
  simp only [restRange]
  by_cases h0 : k = 0
  · subst h0
    have := hlt 0 (by omega)
    simp at this ⊢
    omega
  · by_cases h10 : k = 10
    · subst h10
      have := hlt 9 (by omega)
      simp at this ⊢
      omega
    · have hlo := hlt (k - 1) (by omega)
      have hhi := hlt k (by omega)
      simp only [show k - 1 + 1 = k by omega] at hlo
      simp [h0, h10]
      omega

theorem Limits.Fits.putRest {l : Limits} (h : l.Fits) (k : Fin 11) (v : Int) :
    ({ l with rest := l.rest.set k (clampTo (restRange l k) v) } : Limits).Fits where
  __ := h
  item i := h.item i
  rest := by
    have hc := clampTo_mem v (h.restRange_le k)
    generalize clampTo (restRange l k) v = c at hc ⊢
    refine (rising_iff _).mpr fun i hi => ?_
    have hi' : i + 1 < 11 := by simpa using hi
    have hlt := h.rest_lt i hi'
    obtain ⟨k, hk⟩ := k
    simp only [Vector.getElem_toList, Vector.getElem_set]
    simp only [restRange] at hc
    by_cases h1 : k = i
    · subst h1
      rw [dif_neg (show k ≠ 10 by omega)] at hc
      simp
      omega
    · by_cases h2 : k = i + 1
      · subst h2
        rw [dif_neg (by omega)] at hc
        simp at hc ⊢
        omega
      · simpa [h1, h2] using hlt
  restEnds := by
    have hc := clampTo_mem v (h.restRange_le k)
    have hends := h.restEnds
    have h9 := h.rest_lt 9 (by omega)
    have h0 := h.rest_lt 0 (by omega)
    generalize clampTo (restRange l k) v = c at hc ⊢
    obtain ⟨k, hk⟩ := k
    simp only [Vector.getElem_set]
    simp only [restRange] at hc
    by_cases h1 : k = 0
    · subst h1
      simp at hc ⊢
      omega
    · by_cases h2 : k = 10
      · subst h2
        simp at hc ⊢
        omega
      · simpa [h1, h2] using hends

/-- A write leaves every item within its range (R160). -/
theorem limitsOk_writeLimit {l : Limits} (h : limitsOk l) (a : LimitAddr) (w : LimitValue) : limitsOk (writeLimit l a w).1 := by
  have hl := (limitsOk_iff l).mp h
  cases w with
  | value v =>
    cases a with
    | item i =>
      have hc := clampTo_mem v (itemRange_le l i)
      refine (limitsOk_iff _).mpr ?_
      by_cases hi : i = .eqStart
      · subst hi
        exact hl.putEqStart hc
      · simp only [writeLimit, hi, if_false]
        exact hl.put i hc hi
    | edge k => exact (limitsOk_iff _).mpr (hl.putEdge k v)
    | derate z c => exact (limitsOk_iff _).mpr (hl.putDerate z c v)
    | profile k => exact h
    | rest k => exact (limitsOk_iff _).mpr (hl.putRest k v)
  | entry e =>
    cases a with
    | profile k => exact (limitsOk_iff _).mpr (hl.putProfile k e)
    | _ => exact h

theorem limitsOk_default : limitsOk Limits.default := by decide

end Sys2Proof.Machine
end

section
/-! Every row as a chain of elementary updates and of the changes that reach every block: a write of a limit, the limits lock, a change
of the die zone, and the resets. -/

namespace Sys2Proof.Machine

/-! ### The host commands -/

theorem updates_moved (p : PortId) (q : Port) (s : State) (h : (s.port.get p).within (portCeiling s p) → q.within (portCeiling s p)) :
    Updates s (stepPort p (quiet q) s) :=
  updates_stepPort p _ s h

theorem updates_offersCmd (args : List Byte) (s : State) : Updates s (offersCmd args s).st := by
  unfold offersCmd
  split
  · exact .refl
  · extract_lets valid out q
    split
    · exact .refl
    · split
      · exact updates_moved _ _ s (Port.within_congr rfl rfl rfl)
      · split
        · exact updates_stepPort _ _ s fun h => stepsWithin_takeResult _ _ _ (Port.within_congr rfl rfl rfl h)
        · exact .refl

theorem updates_appliedCmd (args : List Byte) (s : State) : Updates s (appliedCmd args s).st := by
  unfold appliedCmd
  split
  · exact .refl
  · extract_lets q
    split
    · exact updates_stepPort _ _ s (stepsWithin_keep (.inr (.inr rfl)) rfl rfl)
    · exact .refl

theorem stepsWithin_isolateOff (P : Nat) (l : Limits) {q : Port} (hst : q.st = .isolated) :
    stepsWithin P q (isolateOff P l q) := by
  intro h
  obtain ⟨hn, h0⟩ := Port.held_none_of_within h (by simp [hst])
  unfold isolateOff
  split
  · exact Port.within_of_none hn h0
  · split
    · exact Port.within_of_none hn h0
    · exact Port.within_of_none rfl rfl

theorem updates_isolateCmd (args : List Byte) (s : State) : Updates s (isolateCmd args s).st := by
  unfold isolateCmd
  split
  · exact .refl
  · extract_lets q
    split
    · exact .refl
    · split
      · split
        · exact .refl
        · split
          · exact .refl
          · exact updates_stepPort _ _ s fun _ => Port.within_of_none rfl rfl
      · split
        · next hst => exact updates_stepPort _ _ s (stepsWithin_isolateOff _ _ hst)
        · exact .refl

theorem updates_isolateCellCmd (args : List Byte) (s : State) : Updates s (isolateCellCmd args s).st := by
  unfold isolateCellCmd
  split
  · exact .refl
  · exact updates_moveBranch _ _ s

theorem updates_clearFaultCmd (args : List Byte) (s : State) : Updates s (clearFaultCmd args s).st := by
  unfold clearFaultCmd
  split
  · exact .refl
  · exact .ite (fun _ => (updates_clearChgFault _ s).trans (updates_moveBranch _ _ _)) fun _ => .refl

theorem updates_reserveCmd (args : List Byte) (s : State) : Updates s (reserveCmd args s).st := by
  unfold reserveCmd
  split
  · exact .refl
  · next a ha =>
    split
    · exact .refl
    · next k hk =>
      have hk0 : k ≠ 0 := (mem_hostSlots k).mp (List.mem_of_find?_eq_some hk)
      have hok : a.ok = true := by
        unfold reserveArgs at ha
        split at ha
        · split at ha
          · cases ha
          · dsimp only at ha
            split at ha
            · cases ha
              assumption
            · cases ha
        · cases ha
      exact (updates_create k _ s fun _ => fits_newRecord hk0 hok ⟨one_le_nextStamp _, Nat.le_refl _⟩).trans
        (updates_requestPass _)

theorem adjustArgs_range {args : List Byte} {h : HandleArgs} {d : Nat} (ha : adjustArgs args = some (h, d)) :
    1 ≤ d ∧ d ≤ 20000 := by
  unfold adjustArgs at ha
  split at ha
  · dsimp only at ha
    split at ha
    · cases ha
      omega
    · cases ha
  · cases ha

theorem updates_adjustCmd (args : List Byte) (s : State) : Updates s (adjustCmd args s).st := by
  unfold adjustCmd
  split
  · exact .refl
  · next ha =>
    split
    · exact .refl
    · next hc =>
      split
      · exact (updates_replace (recordOf_of_checkHandle hc) (Record.Fits.adjust (adjustArgs_range ha))).trans
          (updates_requestPass _)
      · exact .refl

theorem updates_renewCmd (args : List Byte) (s : State) : Updates s (renewCmd args s).st := by
  unfold renewCmd
  split
  · exact .refl
  · split
    · exact .refl
    · next hc =>
      split
      · exact updates_replace (recordOf_of_checkHandle hc) Record.Fits.renew
      · exact .refl

theorem updates_releaseCmd (args : List Byte) (s : State) : Updates s (releaseCmd args s).st := by
  unfold releaseCmd
  split
  · exact .refl
  · split
    · exact .refl
    · exact (updates_freeSlot _ s).trans (updates_requestPassIf _ _)

theorem updates_clearMark (k : Fin 24) (s : State) : Updates s (clearMark k s) := by
  unfold clearMark
  split
  · exact .refl
  · next hr => exact updates_replace hr Record.Fits.clearMark

theorem updates_collectCmd (args : List Byte) (s : State) : Updates s (collectCmd args s).st := by
  have cleared (ks : List (Fin 24)) (s : State) : Updates s (ks.foldl (fun t k => clearMark k t) s) := by
    induction ks generalizing s with
    | nil => exact .refl
    | cons k ks ih => exact (updates_clearMark k s).trans (ih _)
  cases args with
  | nil => exact cleared _ s
  | cons b bs => exact .refl

/-- A command that only reads leaves the state (R12, R50, R87, R144, R157, R163). -/
theorem read_st {cmd : List Byte → State → Result}
    (h : cmd ∈ [nopCmd, queryCmd, readBudgetCmd, readCellCmd, readInputCmd, getLimitCmd, unknownCmd]) (args : List Byte)
    (s : State) : (cmd args s).st = s := by
  simp only [List.mem_cons, List.not_mem_nil, or_false] at h
  rcases h with rfl | rfl | rfl | rfl | rfl | rfl | rfl
  · cases args <;> rfl
  · unfold queryCmd
    split
    · split <;> rfl
    · rfl
  · cases args <;> rfl
  · unfold readCellCmd
    split <;> rfl
  · unfold readInputCmd
    split <;> rfl
  · unfold getLimitCmd
    split <;> rfl
  · rfl

theorem updates_of_read {cmd : List Byte → State → Result}
    (h : cmd ∈ [nopCmd, queryCmd, readBudgetCmd, readCellCmd, readInputCmd, getLimitCmd, unknownCmd]) (args : List Byte)
    (s : State) : Updates s (cmd args s).st := by
  rw [read_st h]
  exact .refl

theorem updates_readConditionsCmd (args : List Byte) (s : State) : Updates s (readConditionsCmd args s).st := by
  cases args with
  | nil => exact .of (.cond _ fun h => h)
  | cons b bs => exact .refl

theorem updates_setMasksCmd (args : List Byte) (s : State) : Updates s (setMasksCmd args s).st := by
  unfold setMasksCmd
  split
  · exact .refl
  · exact .of (.cond _ fun h => h)

theorem updates_readCountersCmd (args : List Byte) (s : State) : Updates s (readCountersCmd args s).st := by
  cases args with
  | nil => exact .of (.cond _ fun _ => rfl)
  | cons b bs => exact .refl

/-- The commands of R172 but RESET, SET_LIMIT and LOCK_LIMITS, and the one of a code that names none. -/
def plainMeanings : List (List Byte → State → Result) :=
  [nopCmd, reserveCmd, adjustCmd, renewCmd, releaseCmd, queryCmd, collectCmd, readBudgetCmd, readCellCmd, readInputCmd, offersCmd,
    appliedCmd, isolateCmd, isolateCellCmd, clearFaultCmd, getLimitCmd, readConditionsCmd, setMasksCmd, readCountersCmd, unknownCmd]

theorem updates_of_plain {cmd : List Byte → State → Result} (h : cmd ∈ plainMeanings) :
    ∀ (args : List Byte) (s : State), Updates s (cmd args s).st := by
  revert cmd
  simp only [plainMeanings, List.forall_mem_cons, List.not_mem_nil, false_imp_iff, implies_true, and_true]
  exact ⟨updates_of_read (by simp), updates_reserveCmd, updates_adjustCmd, updates_renewCmd, updates_releaseCmd,
    updates_of_read (by simp), updates_collectCmd, updates_of_read (by simp), updates_of_read (by simp), updates_of_read (by simp),
    updates_offersCmd, updates_appliedCmd, updates_isolateCmd, updates_isolateCellCmd, updates_clearFaultCmd,
    updates_of_read (by simp), updates_readConditionsCmd, updates_setMasksCmd, updates_readCountersCmd, updates_of_read (by simp)⟩

theorem updates_runCommand {cmd : List Byte → State → Result} (h : cmd ∈ plainMeanings) (args : List Byte) (s : State) :
    Updates s (runCommand cmd args s) :=
  (updates_of_plain h args s).trans <| (updates_placeAnswer _ _ _).trans (updates_restartSilence _)

/-! ### The changes that reach every block -/

/-- A control reset once the frame in progress is discarded (R154). -/
def resetFrom (s : State) : State := placeAnswer .firstFrame [] (requestPass (resetBlocks s.lim.cap (resetLimits s)))

theorem controlReset_eq (s : State) : controlReset s = resetFrom (discardFrame s) := rfl

/-- A change that reaches every block. -/
inductive Major : State → State → Prop where
  | write (a : LimitAddr) (w : LimitValue) (s : State) : Major s (applyWrite a (writeLimit s.lim a w).1 s)
  | lock (s : State) : Major s { s with locked := true }
  | die (hot : Bool) (s : State) : Major s (setDieZone hot s)
  | reset (s : State) : Major s (resetFrom s)
  | powerOn (s : State) : Major s (powerOnReset s)

/-- A chain of elementary updates and of changes that reach every block. -/
def Changes : State → State → Prop := Relation.ReflTransGen fun s t => Update s t ∨ Major s t

theorem Changes.of_updates {s t : State} (h : Updates s t) : Changes s t := by
  induction h with
  | refl => exact .refl
  | tail _ hu ih => exact ih.tail (.inl hu)

theorem Changes.of_major {s t : State} (h : Major s t) : Changes s t := Relation.ReflTransGen.single (.inr h)

theorem Changes.trans {s t u : State} (h : Changes s t) (g : Changes t u) : Changes s u := Relation.ReflTransGen.trans h g

theorem Changes.keeps {P : State → Prop} (hU : ∀ s t, Update s t → P s → P t) (hM : ∀ s t, Major s t → P s → P t) {s t : State}
    (h : Changes s t) (hs : P s) : P t := by
  induction h with
  | refl => exact hs
  | tail _ hu ih => exact hu.elim (fun h => hU _ _ h ih) fun h => hM _ _ h ih

theorem changes_setLimitCmd (args : List Byte) (s : State) : Changes s (setLimitCmd args s).st := by
  unfold setLimitCmd
  split
  · exact .of_updates .refl
  · split
    · exact .of_updates .refl
    · exact .of_major (.write _ _ s)

theorem changes_lockLimitsCmd (args : List Byte) (s : State) : Changes s (lockLimitsCmd args s).st := by
  cases args with
  | nil => exact .of_major (.lock s)
  | cons b bs => exact .of_updates .refl

theorem changes_dieSample (t : Int) (s : State) : Changes s (dieSample t s) := by
  unfold dieSample
  extract_lets q s1 t'
  have timed : Changes s s1 := .of_updates (updates_slots _ s)
  split
  · exact timed.trans <| (Changes.of_updates (updates_latch .dieHot s1)).trans (.of_major (.die true _))
  · split
    · exact timed.trans (.of_major (.die false _))
    · exact timed

theorem changes_controlReset (s : State) : Changes s (controlReset s) := by
  rw [controlReset_eq]
  exact (Changes.of_updates (.of (.link _ fun _ => receiverOk_idle rfl rfl))).trans (.of_major (.reset _))

theorem changes_runReset (args : List Byte) (s : State) : Changes s (runReset args s) := by
  cases args with
  | nil => exact (changes_controlReset s).trans (.of_updates (updates_restartSilence _))
  | cons b bs => exact .of_updates ((updates_placeAnswer _ _ s).trans (updates_restartSilence _))

/-- The code of a well-formed frame runs RESET, SET_LIMIT, LOCK_LIMITS or another meaning (R172). -/
theorem runCode_meaning (code : Byte) (args : List Byte) (s : State) :
    (code = 0x7F ∧ runCode code args s = runReset args s) ∨
      (code = 0x40 ∧ runCode code args s = runCommand setLimitCmd args s) ∨
      runCode code args s = runCommand lockLimitsCmd args s ∨
      ∃ cmd ∈ plainMeanings, runCode code args s = runCommand cmd args s := by
  unfold runCode
  split
  case h_16 h => exact .inr (.inl ⟨BitVec.eq_of_toNat_eq h, rfl⟩)
  case h_18 => exact .inr (.inr (.inl rfl))
  case h_22 h => exact .inl ⟨BitVec.eq_of_toNat_eq h, rfl⟩
  all_goals exact .inr (.inr (.inr ⟨_, by simp [plainMeanings], rfl⟩))

theorem changes_runCommand {cmd : List Byte → State → Result} (h : ∀ args s, Changes s (cmd args s).st) (args : List Byte)
    (s : State) : Changes s (runCommand cmd args s) :=
  (h args s).trans (.of_updates ((updates_placeAnswer _ _ _).trans (updates_restartSilence _)))

theorem changes_takeFrame (bs : List Byte) (s : State) : Changes s (takeFrame bs s) := by
  unfold takeFrame
  split
  · exact .of_updates (updates_erredFrame _ s)
  · next code args _ =>
    rcases runCode_meaning code args s with ⟨-, h⟩ | ⟨-, h⟩ | h | ⟨cmd, hmem, h⟩ <;> rw [h]
    · exact changes_runReset args s
    · exact changes_runCommand changes_setLimitCmd args s
    · exact changes_runCommand changes_lockLimitsCmd args s
    · exact .of_updates (updates_runCommand hmem args s)

/-- The rise of LSEL ends a frame or nothing, and what is done with the frame follows. -/
theorem lselRiseWith_cases (take : State → State) (s : State) :
    Updates s (lselRiseWith take s) ∨ ∃ u, Updates s u ∧ lselRiseWith take s = take u := by
  unfold lselRiseWith
  split
  · exact .inl .refl
  · extract_lets link s1
    split
    · next hrstn => exact .inl (updates_raised (.inl hrstn))
    · split
      · next hrx => exact .inl (updates_raised (.inr hrx))
      · exact .inr ⟨_, updates_ended s, rfl⟩
      · exact .inl (updates_ended s)

theorem changes_lselRiseWith {take : State → State} (h : ∀ u, Changes u (take u)) (s : State) :
    Changes s (lselRiseWith take s) := by
  rcases lselRiseWith_cases take s with hu | ⟨u, hu, heq⟩
  · exact .of_updates hu
  · exact heq ▸ (Changes.of_updates hu).trans (h u)

/-- The row of a command is a fall, and a rise that takes the frame (R155, R156). -/
theorem commandFrame_cases (run : List Byte → State → State) (args : List Byte) (s : State) :
    Updates s (commandFrame run args s) ∨ ∃ u, Updates s u ∧ commandFrame run args s = run args u := by
  unfold commandFrame
  rcases lselRiseWith_cases (if args.length ≤ 32 then run args else erredFrame .frameBadLength) (lselFall s) with
    hu | ⟨u, hu, heq⟩
  · exact .inl ((updates_lselFall s).trans hu)
  · rw [heq]
    split
    · exact .inr ⟨u, (updates_lselFall s).trans hu, rfl⟩
    · exact .inl (((updates_lselFall s).trans hu).trans (updates_erredFrame _ u))

theorem changes_commandFrame {run : List Byte → State → State} (args : List Byte) (h : ∀ u, Changes u (run args u)) (s : State) :
    Changes s (commandFrame run args s) := by
  rcases commandFrame_cases run args s with hu | ⟨u, hu, heq⟩
  · exact .of_updates hu
  · exact heq ▸ (Changes.of_updates hu).trans (h u)

theorem updates_commandFrame {cmd : List Byte → State → Result} (h : cmd ∈ plainMeanings) (args : List Byte) (s : State) :
    Updates s (commandFrame (runCommand cmd) args s) := by
  rcases commandFrame_cases (runCommand cmd) args s with hu | ⟨u, hu, heq⟩
  · exact hu
  · exact heq ▸ hu.trans (updates_runCommand h args u)

theorem changes_rstnFall (s : State) : Changes s (rstnFall s) := by
  unfold rstnFall
  split
  · exact .of_updates .refl
  · rw [controlReset_eq]
    exact (Changes.of_updates (.of (.link { s.link with rstnLow := true, rx := .idle, frameTimer := none, ldo := none, silence := none }
      fun _ => receiverOk_idle rfl rfl))).trans (.of_major (.reset _))

/-! ### Every row -/

/-- The rows that can reach every block. -/
def reachesAll : Instr → Bool
  | .powerOnReset | .rstnLow | .lselRise _ | .reset _ | .setLimit _ | .lockLimits _ | .dieSample _ => true
  | _ => false

/-- Every other row is a chain of elementary updates. -/
theorem updates_of_exec {i : Instr} {s t : State} (hi : reachesAll i = false) (he : exec i s = .next t) : Updates s t := by
  cases i with
  | powerOnReset | rstnLow | lselRise | reset | setLimit | lockLimits | dieSample => cases hi
  | nop args | reserve args | adjust args | renew args | release args | query args | collect args | readBudget args
  | readCell args | readInput args | offers args | applied args | isolate args | isolateCell args | clearFault args
  | getLimit args | readConditions args | setMasks args | readCounters args =>
    cases he
    exact updates_commandFrame (by simp [plainMeanings]) args s
  | lselFall => cases he; exact updates_lselFall s
  | frameTimerExpiry => cases he; exact updates_frameTimeout s
  | silenceTimerExpiry => cases he; exact updates_silenceExpiry s
  | rstnRise => cases he; exact updates_rstnRise s
  | lifetimeExpiry k | burstExpiry k | burstTotalExpiry k | waitLimitExpiry k => cases he; exact updates_expireWhere _ k _ s
  | passTimerExpiry => cases he; exact updates_passTimerExpiry s
  | requestDelayExpiry => cases he; exact updates_requestDelayExpiry s
  | foldLevelChange high => cases he; exact updates_foldLevelChange high s
  | foldSettleExpiry => cases he; exact updates_foldSettleExpiry s
  | cellASample v i t order => cases he; exact updates_cellASample v i t order s
  | cellOvervoltageRun x => cases he; exact updates_overvoltageRun x s
  | terminationRun x => cases he; exact updates_terminationRun x s
  | prechargeTimerExpiry x => cases he; exact updates_prechargeExpiry x s
  | fastTimerExpiry x => cases he; exact updates_fastExpiry x s
  | dischargeOvercurrentRun x => cases he; exact updates_dischargeRun x s
  | chargeOvercurrentRun x => cases he; exact updates_chargeRun x s
  | cutoffRun x => cases he; exact updates_cutoffRun x s
  | systemLoadSample pm => cases he; exact updates_loadSample pm s
  | overdrawOn => cases he; exact updates_overdrawOnRun s
  | overdrawOff => cases he; exact updates_overdrawOffRun s
  | hingeSlot low => cases he; exact updates_hingeSlot low s
  | pollCollision => cases he; exact updates_pollCollision s
  | pollComplete => cases he; exact updates_pollComplete s
  | replyWindowExpiry begun => cases he; exact updates_replyWindowExpiry begun s
  | badReplyFraming cause => cases he; exact updates_replyRise cause s
  | sample line order => cases he; exact updates_sampleRead line order s
  | farBreak => cases he; exact updates_farBreak s
  | hslBreakEnd => cases he; exact updates_breakEnd s
  | failureRun => cases he; exact updates_failureRun s
  | goodRun order => cases he; exact updates_goodRun order s
  | degradedTimerExpiry => cases he; exact updates_degradedExpiry s
  | inputSample p vin => cases he; exact updates_inputSample p vin s
  | attachRun p => cases he; exact updates_attachRun p s
  | detachRun p => cases he; exact updates_detachRun p s
  | inputOvervoltageRun p => cases he; exact updates_inputOvervoltageRun p s
  | offerWindowExpiry p => cases he; exact updates_offerWindowExpiry p s
  | confirmTimerExpiry p => cases he; exact updates_confirmExpiry p s
  | verifyWindowExpiry p => cases he; exact updates_verifyExpiry p s
  | breakTimerExpiry => cases he; exact .of (.breakEnd s)

/-- Every row is a chain of changes. -/
theorem changes_of_exec {i : Instr} {s t : State} (he : exec i s = .next t) : Changes s t := by
  by_cases hi : reachesAll i = false
  · exact .of_updates (updates_of_exec hi he)
  · cases i with
    | powerOnReset => cases he; exact .of_major (.powerOn s)
    | rstnLow => cases he; exact changes_rstnFall s
    | lselRise bits => cases he; exact changes_lselRiseWith (changes_takeFrame _) s
    | reset args => cases he; exact changes_commandFrame args (changes_runReset args) s
    | setLimit args => cases he; exact changes_commandFrame args (changes_runCommand changes_setLimitCmd args) s
    | lockLimits args => cases he; exact changes_commandFrame args (changes_runCommand changes_lockLimitsCmd args) s
    | dieSample t => cases he; exact changes_dieSample t s
    | _ => exact absurd rfl hi

end Sys2Proof.Machine
end

section
/-! What the changes do to the blocks, said once: the arbiter's moves, an accepted far sample, the writes and resets in their pieces; and
the principle by which an invariant is kept by every step. -/

namespace Sys2Proof.Machine

/-! ### The arbiter's moves (9.1) -/

/-- A move of the arbiter, or none. -/
inductive ArbMove : State → State → Prop where
  | stay (s : State) : ArbMove s s
  | opened (dest : ArbState) (s : State) (leaves : dest = .none ∨ dest = .changeover) : ArbMove s (switchOpened dest s)
  | switched (p : PortId) (h : Held) (s : State) (held : (s.port.get p).held = some h) : ArbMove s (switchedTo p h s)
  | idle (dest : ArbState) (s : State) : ArbMove s (withRequest { s with arb := { s.arb with st := dest } })

theorem arbMove_leaveActive {dest : ArbState} (s : State) (h : dest = .none ∨ dest = .changeover) :
    ArbMove s (leaveActive dest s) :=
  leaveActive_eq dest s ▸ .opened dest s h

theorem arbMove_goActive {p : PortId} {s : State} (h : eligible s p) : ArbMove s (goActive p s) := by
  obtain ⟨c, hc⟩ := Port.held_of_eligible h
  exact goActive_eq p c s hc ▸ .switched p c s hc

theorem arbMove_goIdle (dest : ArbState) (s : State) : ArbMove s (goIdle dest s) := goIdle_eq dest s ▸ .idle dest s

theorem arbMove_arbLoss (p : PortId) (s : State) : ArbMove s (arbLoss p s) := by
  unfold arbLoss
  split
  · split
    · exact arbMove_leaveActive s (by split <;> simp)
    · exact .stay s
  · exact .stay s
  · exact .stay s

theorem arbMove_arbGain {p : PortId} {s : State} (h : eligible s p) : ArbMove s (arbGain p s) := by
  unfold arbGain
  split
  · split
    · exact arbMove_goIdle _ s
    · exact arbMove_goActive h
  · split
    · exact arbMove_leaveActive s (.inr rfl)
    · exact .stay s
  · exact .stay s

theorem arbMove_handEligibility (p : PortId) (before : Bool) (s : State) : ArbMove s (handEligibility p before s) := by
  unfold handEligibility
  split
  · exact .stay s
  · next hne =>
    split
    · exact arbMove_arbLoss p s
    · next hb => exact arbMove_arbGain (by simp_all)

theorem arbMove_preferenceChange (s : State) : ArbMove s (preferenceChange s) := by
  unfold preferenceChange
  split
  · split
    · exact arbMove_leaveActive s (.inr rfl)
    · exact .stay s
  · exact .stay s
  · exact .stay s

theorem eligible_of_chosenPort {s : State} {p : PortId} (h : chosenPort s = some p) : eligible s p := by
  unfold chosenPort at h
  split at h
  · cases h
    assumption
  · split at h
    · cases h
      assumption
    · cases h

/-- An invariant that the arbiter's moves keep is kept by a port step that keeps it up to the arbiter. -/
theorem keeps_stepPort {P : State → Prop} (hmove : ∀ s t, ArbMove s t → P s → P t) {p : PortId} {w : PortStep} {s : State}
    (h : P (portStepped p w s)) : P (stepPort p w s) := by
  rw [stepPort_eq]
  exact hmove _ _ (arbMove_handEligibility p _ _) h

theorem keeps_preferenceChange {P : State → Prop} (hmove : ∀ s t, ArbMove s t → P s → P t) {s : State} (h : P s) :
    P (preferenceChange s) :=
  hmove _ _ (arbMove_preferenceChange s) h

/-- The arbiter's break timer stopped. -/
def stopBreak (s : State) : State := { s with arb := { s.arb with brk := none } }

theorem keeps_breakExpiry {P : State → Prop} (hmove : ∀ s t, ArbMove s t → P s → P t) (hlatch : ∀ c s, P s → P (latch c s))
    {s : State} (h : P s) (hs : P (stopBreak s)) : P (breakExpiry s) := by
  unfold breakExpiry
  split
  · dsimp only
    split
    · unfold endChangeover
      split
      · next p hp => exact hlatch _ _ (hmove _ _ (arbMove_goActive (eligible_of_chosenPort hp)) hs)
      · exact hmove _ _ (arbMove_goIdle _ _) hs
    · exact hs
  · exact h

/-! ### An accepted far sample (7.3, 4.2) -/

/-- Bits latched, and a pass requested where `c`. -/
def noted (c : Bool) (bits : BitVec 26) (s : State) : State := if c then withRequest (latchedWith bits s) else latchedWith bits s

theorem noted_false_zero (s : State) : noted false 0 s = s := by
  simp [noted, latchedWith]

theorem noted_noted (c d : Bool) (b e : BitVec 26) (s : State) : noted c b (noted d e s) = noted (c || d) (e ||| b) s := by
  cases c <;> cases d <;> simp [noted, latchedWith, withRequest, BitVec.or_assoc] <;> rfl

theorem requestPassIf_eq_noted (c : Bool) (s : State) : requestPassIf c s = noted c 0 s := by
  cases c <;> simp [noted, requestPassIf_eq, latchedWith, withRequest]

theorem requestPass_latch_eq_noted (c : Condition) (s : State) : requestPass (latch c s) = noted true c.flag s := by
  simp [noted, requestPass_eq, latch_eq]

theorem putReading_noted (x : Cell) (r : Reading) (c : Bool) (b : BitVec 26) (s : State) :
    putReading x r (noted c b s) = noted c b (putReading x r s) := by
  cases c <;> rfl

theorem noted_lim (c : Bool) (b : BitVec 26) (s : State) : (noted c b s).lim = s.lim := by
  cases c <;> rfl

theorem readingOf_noted (c : Bool) (b : BitVec 26) (s : State) (x : Cell) : readingOf (noted c b s) x = readingOf s x := by
  cases c <;> rfl

/-- A GOOD exchange leaves a ladder beyond AWAITING, its sample still the latest (R122, R125). -/
theorem onGood_form (s : State) :
    ∃ c b h, onGood s = noted c b (putHinge h s) ∧ h.dataState ≠ .awaiting ∧ h.latest = s.hinge.latest ∧
      h.lastSeq = s.hinge.lastSeq ∧
      (s.hinge.failRun ≤ 3 → s.hinge.goodRun ≤ 4 → (s.hinge.goodRun = 0 ∨ s.hinge.dataState.byCommand = true) →
        (s.hinge.degTimer.isSome = true ↔ s.hinge.dataState = .stale) →
          h.failRun ≤ 3 ∧ h.goodRun ≤ 4 ∧ (h.goodRun = 0 ∨ h.dataState.byCommand = true) ∧
            (h.degTimer.isSome = true ↔ h.dataState = .stale)) := by
  have live (hd : s.hinge.dataState.byCommand = false) : ∃ c, setDataState .live (putHinge { s.hinge with failRun := 0 } s) =
      noted c 0 (putHinge { s.hinge with dataState := .live, failRun := 0 } s) :=
    ⟨_, requestPassIf_eq_noted _ _⟩
  have recovering (hd : s.hinge.dataState.byCommand = true) : onGood s = onGoodRecovering s := by
    unfold onGood
    cases h : s.hinge.dataState <;> simp_all [DataState.byCommand]
  by_cases hd : s.hinge.dataState.byCommand = true
  · rw [recovering hd]
    unfold onGoodRecovering
    dsimp only
    split
    · exact ⟨_, _, _, requestPass_latch_eq_noted _ _, by simp, rfl, rfl, by simp⟩
    · refine ⟨false, 0, _, (noted_false_zero _).symm, ?_, rfl, rfl, fun hf hg hb ht => ⟨by simp, ?_, .inr hd, ht⟩⟩
      · intro h
        change s.hinge.dataState = .awaiting at h
        simp [h, DataState.byCommand] at hd
      · dsimp only
        omega
  · obtain ⟨c, hc⟩ := live (by simpa using hd)
    have good : onGood s = setDataState .live (putHinge { s.hinge with failRun := 0 } s) := by
      unfold onGood
      cases h : s.hinge.dataState <;> simp_all [DataState.byCommand]
    refine ⟨c, 0, _, good.trans hc, by simp, rfl, rfl, fun hf hg hb ht => ⟨by simp, hg, .inl ?_, ?_⟩⟩
    · exact hb.resolve_right hd
    · dsimp only
      rw [ht]
      constructor
      · intro h
        simp [h, DataState.byCommand] at hd
      · simp

theorem noteZone_form (x : Cell) (before : Option Zone) (after : Zone) (s : State) :
    ∃ c b, noteZone x before after s = noted c b s := by
  unfold noteZone
  split
  · exact ⟨true, 0, requestPassIf_eq_noted true s⟩
  · split
    · exact ⟨false, 0, (noted_false_zero s).symm⟩
    · exact ⟨true, _, requestPass_latch_eq_noted _ s⟩

theorem clampFar (i : Int) : -8000 ≤ clampInt (-8000) 8000 i ∧ clampInt (-8000) 8000 i ≤ 8000 := clampInt_mem _ _ i (by omega)

/-- An accepted far sample moves the hinge link controller, stores cell B's reading, latches and requests, and leaves all else. -/
theorem storeFarSample_form (f : FarSample) (q : Byte) (counted : Int) (s : State) (hf : f.ok) :
    ∃ c b h r, storeFarSample f q counted s = noted c b (putReading .B r (putHinge h s)) ∧ (s.hinge.ladder → h.ladder) ∧
      h.latest = some f ∧ h.dataState ≠ .awaiting ∧ r.count ≤ fullCount s.lim .B ∧ readingOk r := by
  obtain ⟨c, b, h, hgood, hd, hlatest, hseq, hruns⟩ :=
    onGood_form (putHinge { s.hinge with exch := .ended, latest := some f, lastSeq := some q } s)
  unfold storeFarSample
  rw [storeSample_eq, hgood, putReading_noted]
  obtain ⟨c', b', hnote⟩ := noteZone_form .B
    ((readingOf (noted c b (putHinge h (putHinge { s.hinge with exch := .ended, latest := some f, lastSeq := some q } s))) .B).map
      fun r => r.zone) _ _
  refine ⟨_, _, h, _, hnote.trans (noted_noted _ _ _ _ _), fun hl => ?_, hlatest, hd, ?_, ?_⟩
  · obtain ⟨hf, hg, hb, ht, -⟩ := (Hinge.ladder_iff _).mp hl
    obtain ⟨hf, hg, hb, ht⟩ := hruns hf hg hb ht
    exact (Hinge.ladder_iff h).mpr ⟨hf, hg, hb, ht, by simp [hlatest, hd], by simp [hseq, hd]⟩
  · have := storedCount_le .B f.v counted
      (noted c b (putHinge h (putHinge { s.hinge with exch := .ended, latest := some f, lastSeq := some q } s)))
    rw [noted_lim] at this
    exact this
  · have hi := clampFar f.i
    simp only [FarSample.ok, Bool.and_eq_true, decide_eq_true_eq] at hf
    simp only [readingOk, Bool.and_eq_true, decide_eq_true_eq]
    omega

/-! ### Writes and resets in their pieces -/

/-- A piece of a change that reaches every block, which may break an invariant that the rest of the change restores. -/
inductive Raw : State → State → Prop where
  | limits {s : State} (l : Limits) (locked : Bool) (ok : limitsOk s.lim → limitsOk l) : Raw s { s with lim := l, locked := locked }
  | zone {s : State} (hot : Bool) : Raw s { s with dieHot := hot }
  | rescale {s : State} (x : Cell) (old : Nat) : Raw s (rescale x old s)

/-- A chain of elementary updates and pieces. -/
def Pieces : State → State → Prop := Relation.ReflTransGen fun s t => Update s t ∨ Raw s t

theorem Pieces.of_updates {s t : State} (h : Updates s t) : Pieces s t := by
  induction h with
  | refl => exact .refl
  | tail _ hu ih => exact ih.tail (.inl hu)

theorem Pieces.of_raw {s t : State} (h : Raw s t) : Pieces s t := Relation.ReflTransGen.single (.inr h)

theorem Pieces.trans {s t u : State} (h : Pieces s t) (g : Pieces t u) : Pieces s u := Relation.ReflTransGen.trans h g

theorem Pieces.keeps {P : State → Prop} (hU : ∀ s t, Update s t → P s → P t) (hR : ∀ s t, Raw s t → P s → P t) {s t : State}
    (h : Pieces s t) (hs : P s) : P t := by
  induction h with
  | refl => exact hs
  | tail _ hu ih => exact hu.elim (fun h => hU _ _ h ih) fun h => hR _ _ h ih

theorem pieces_handOffLimit (a : LimitAddr) (old : Limits) (s : State) : Pieces s (handOffLimit a old s) := by
  unfold handOffLimit
  split
  · exact .of_updates (updates_reevaluateBoth s)
  · exact .of_updates (updates_reevaluateBoth s)
  · exact .of_updates (updates_reevaluateBoth s)
  · exact .of_raw (.rescale _ _)
  · exact .of_updates (.of (.preference s))
  all_goals exact .of_updates .refl

theorem tableOk_reset (s : State) : tableOk { s with resv := Table.reset } := by
  have free (k : Fin 24) : recordOf { s with resv := Table.reset } k = none := by
    simp [recordOf, slotOf, Table.reset, Slot.free]
  refine (tableOk_iff _).mpr ⟨fun k r hr => ?_, by simp [Table.reset], by simp [Table.reset]⟩
  rw [free k] at hr
  cases hr

theorem updates_resetTable (s : State) : Updates s (resetTable s) := .of (.table _ fun _ _ => tableOk_reset s)

theorem updates_resetConditions (s : State) : Updates s (resetConditions s) := .of (.cond _ fun _ => rfl)

theorem pieces_resetCells (old : PerCell Nat) (s : State) : Pieces s (resetCells old s) :=
  (Pieces.of_raw (.rescale .A _)).trans (.of_raw (.rescale .B _))

/-- The reset steps of the blocks after the cell records' (R154). -/
theorem updates_resetControllers (s : State) :
    Updates s (resetLoad (resetBranch .B (resetBranch .A (resetCharge .B (resetCharge .A s))))) :=
  (updates_resetCharge .A s).trans <| (updates_resetCharge .B _).trans <| (updates_moveBranch .A _ _).trans <|
    (updates_moveBranch .B _ _).trans (updates_resetLoad _)

theorem pieces_of_major {s t : State} (h : Major s t) : Pieces s t ∨ t = powerOnReset s := by
  cases h with
  | write a w =>
    left
    unfold applyWrite
    split
    · exact .of_updates .refl
    · have stored : Raw s { s with lim := (writeLimit s.lim a w).1 } :=
        .limits (writeLimit s.lim a w).1 s.locked fun h => limitsOk_writeLimit h a w
      exact (Pieces.of_raw stored).trans <| (Pieces.of_updates (updates_requestPass _)).trans (pieces_handOffLimit _ _ _)
  | lock => exact .inl (.of_raw (.limits s.lim true id))
  | die hot => exact .inl ((Pieces.of_raw (.zone hot)).trans (.of_updates (updates_reevaluateBoth _)))
  | reset =>
    left
    have limits : Pieces s (resetLimits s) := .of_raw (.limits Limits.default false fun _ => limitsOk_default)
    have tables : Updates (resetLimits s) (resetTable (resetConditions (resetLimits s))) :=
      (updates_resetConditions _).trans (updates_resetTable _)
    exact limits.trans <| (Pieces.of_updates tables).trans <| (pieces_resetCells _ _).trans <| .of_updates <|
      (updates_resetControllers _).trans <| (updates_reevaluateBoth _).trans <| (updates_requestPass _).trans
        (updates_placeAnswer _ _ _)
  | powerOn => exact .inr rfl

/-! ### Invariants of every step -/

/-- An invariant that every change, a millisecond and the queue keep is kept by every step. -/
theorem keeps_of_step {P : State → Prop} (hchange : ∀ s t, Changes s t → P s → P t) (hadvance : ∀ s, P s → P (advance s))
    (hqueue : ∀ s q, P s → P { s with pending := q }) {s t : State} (hstep : step s = .next t) (hs : P s) : P t := by
  rcases step_cases hstep with ⟨i, q, he⟩ | rfl
  · exact hchange _ _ (changes_of_exec he) (hqueue s q hs)
  · exact hadvance s hs

/-- An invariant that the elementary updates, the pieces and a power-on reset keep is kept by every change. -/
theorem keeps_of_pieces {P : State → Prop} (hU : ∀ s t, Update s t → P s → P t) (hR : ∀ s t, Raw s t → P s → P t)
    (hpower : ∀ s, P (powerOnReset s)) {s t : State} (h : Changes s t) (hs : P s) : P t :=
  h.keeps hU (fun _ _ hm hs => (pieces_of_major hm).elim (fun h => h.keeps hU hR hs) fun h => h ▸ hpower _) hs

end Sys2Proof.Machine
end

section
/-! The invariants that every step keeps: limits, records, cell records, ladder, sessions, mark, overdraw, counters, receiver. -/

namespace Sys2Proof.Machine

/-! ### What an update leaves of a block it does not touch -/

theorem ArbMove.keeps_of_frame {P : State → Prop}
    (h : ∀ s port budget chg arb, P s → P { s with port := port, budget := budget, chg := chg, arb := arb }) (s t : State)
    (hm : ArbMove s t) (hs : P s) : P t := by
  cases hm with
  | stay => exact hs
  | opened dest => exact h s s.port (switchOpened dest s).budget (switchOpened dest s).chg (switchOpened dest s).arb hs
  | switched p c _ => exact h s (switchedTo p c s).port (switchedTo p c s).budget s.chg (switchedTo p c s).arb hs
  | idle dest => exact h s s.port (withRequest s).budget s.chg { s.arb with st := dest } hs

/-- A block that a port step, the arbiter and a far sample's notes leave alone. -/
theorem keeps_of_ports {P : State → Prop}
    (h : ∀ s port budget chg arb, P s → P { s with port := port, budget := budget, chg := chg, arb := arb })
    (hcond : ∀ s l, P s → P { s with cond := { s.cond with latched := l } }) :
    (∀ p w s, P s → P (stepPort p w s)) ∧ (∀ s, P s → P (breakExpiry s)) ∧ ∀ s, P s → P (preferenceChange s) := by
  have move := ArbMove.keeps_of_frame h
  refine ⟨fun p w s hs => keeps_stepPort move ?_, fun s hs => keeps_breakExpiry move (fun c s h => hcond s _ h) hs ?_,
    fun s hs => keeps_preferenceChange move hs⟩
  · exact hcond _ (portStepped p w s).cond.latched (h s (portStepped p w s).port (portStepped p w s).budget s.chg s.arb hs)
  · exact h s s.port s.budget s.chg _ hs

theorem keeps_noted {P : State → Prop} (hreq : ∀ s, P s → P (withRequest s))
    (hcond : ∀ s l, P s → P { s with cond := { s.cond with latched := l } }) (c : Bool) (b : BitVec 26) {s : State} (hs : P s) :
    P (noted c b s) := by
  cases c
  · exact hcond s _ hs
  · exact hreq _ (hcond s _ hs)

/-! ### Limits (10.6) -/

theorem limitsOk_update (s t : State) (h : Update s t) (hs : limitsOk s.lim) : limitsOk t.lim := by
  obtain ⟨step, brk, pref⟩ := keeps_of_ports (P := fun s => limitsOk s.lim) (fun _ _ _ _ _ h => h) fun _ _ h => h
  cases h with
  | farSample f q counted range =>
    obtain ⟨c, b, h, r, heq, -⟩ := storeFarSample_form f q counted s range
    rw [heq]
    exact keeps_noted (P := fun s => limitsOk s.lim) (fun _ h => h) (fun _ _ h => h) c b hs
  | port p w _ => exact step p w s hs
  | breakEnd => exact brk s hs
  | preference => exact pref s hs
  | _ => exact hs

theorem limitsOk_raw (s t : State) (h : Raw s t) (hs : limitsOk s.lim) : limitsOk t.lim := by
  cases h with
  | limits l b ok => exact ok hs
  | zone => exact hs
  | rescale x old =>
    unfold rescale
    split <;> exact hs

/-- Settles O4: a write clamps what it stores, a reset stores the defaults, and nothing else touches the items. -/
theorem stepKeepsLimitsInRange : Obligations.StepKeepsLimitsInRange := fun _ _ hs hstep =>
  keeps_of_step (P := fun s => limitsOk s.lim)
    (fun _ _ => keeps_of_pieces limitsOk_update limitsOk_raw fun _ => limitsOk_default) (fun _ h => h) (fun _ _ h => h) hstep hs

/-! ### Records (1.2) -/

/-- The table within its field table, the limits within theirs. -/
def tableAndLimitsOk (s : State) : Prop := limitsOk s.lim ∧ tableOk s

theorem tableAndLimitsOk_update (s t : State) (h : Update s t) (hs : tableAndLimitsOk s) : tableAndLimitsOk t := by
  obtain ⟨step, brk, pref⟩ := keeps_of_ports (P := tableAndLimitsOk) (fun _ _ _ _ _ h => h) fun _ _ h => h
  cases h with
  | table r table => exact ⟨hs.1, table hs.1 hs.2⟩
  | farSample f q counted range =>
    obtain ⟨c, b, h, r, heq, -⟩ := storeFarSample_form f q counted s range
    rw [heq]
    exact keeps_noted (P := tableAndLimitsOk) (fun _ h => h) (fun _ _ h => h) c b hs
  | port p w _ => exact step p w s hs
  | breakEnd => exact brk s hs
  | preference => exact pref s hs
  | _ => exact hs

theorem tableAndLimitsOk_raw (s t : State) (h : Raw s t) (hs : tableAndLimitsOk s) : tableAndLimitsOk t := by
  cases h with
  | limits l b ok => exact ⟨ok hs.1, hs.2⟩
  | zone => exact hs
  | rescale x old =>
    unfold rescale
    split <;> exact hs

theorem tableOk_advance {s : State} (h : tableOk s) : tableOk (advance s) := by
  obtain ⟨-, ha, hg⟩ := (tableOk_iff s).mp h
  refine (tableOk_iff _).mpr ⟨fun k r hr => ?_, ha, hg⟩
  rw [recordOf_advance] at hr
  obtain ⟨q, hq, rfl⟩ := Option.map_eq_some_iff.mp hr
  exact recordOk_iff.mpr (fits_of_tableOk h hq).tick

/-- Settles O5: each verdict, end, command and millisecond leaves a record as the field table has it. -/
theorem stepKeepsRecordsWellFormed : Obligations.StepKeepsRecordsWellFormed := fun _ _ hl ht hstep =>
  (keeps_of_step (P := tableAndLimitsOk)
    (fun _ _ => keeps_of_pieces tableAndLimitsOk_update tableAndLimitsOk_raw fun s => ⟨limitsOk_default, tableOk_reset s⟩)
    (fun _ h => ⟨h.1, tableOk_advance h.2⟩) (fun _ _ h => h) hstep ⟨hl, ht⟩).2

/-! ### Cell records (4) -/

/-- A monitor without a reading has no count out of range; with one its count is at most the full count. -/
def countsFit (s : State) : Prop := ∀ x r, readingOf s x = some r → r.count ≤ fullCount s.lim x

theorem socOf_le {l : Limits} {x : Cell} {c : Nat} (h : c ≤ fullCount l x) : socOf l x c ≤ 1000 :=
  Nat.div_le_of_le_mul (Nat.mul_le_mul_right _ h)

theorem countsOk_iff (s : State) : countsOk s = true ↔ countsFit s := by
  have cell (x : Cell) : countOk s x = true ↔ ∀ r, readingOf s x = some r → r.count ≤ fullCount s.lim x := by
    simp only [countOk, Option.all_eq_true, Bool.and_eq_true, decide_eq_true_eq]
    exact ⟨fun h r hr => (h r hr).1, fun h r hr => ⟨h r hr, socOf_le (h r hr)⟩⟩
  simp only [countsOk, Bool.and_eq_true, cell]
  exact ⟨fun h x => by cases x; exacts [h.1, h.2], fun h => ⟨h .A, h .B⟩⟩

theorem readingsOk_iff (s : State) :
    readingsOk s = true ↔ (∀ x r, readingOf s x = some r → readingOk r) ∧ ∀ f, s.hinge.latest = some f → f.ok := by
  simp only [readingsOk, FarSample.ok, Bool.and_eq_true, Option.all_eq_true]
  exact ⟨fun h => ⟨fun x => by cases x; exacts [h.1.1, h.1.2], h.2⟩, fun h => ⟨⟨h.1 .A, h.1 .B⟩, h.2⟩⟩

theorem readingOf_putReading (x y : Cell) (r : Reading) (s : State) :
    readingOf (putReading x r s) y = if y = x then some r else readingOf s y := by
  cases x <;> cases y <;> rfl

theorem readingOf_putMonitor {x : Cell} {m : Monitor} {s : State} (h : m.rd = (s.mon.get x).rd) (y : Cell) :
    readingOf (putMonitor x m s) y = readingOf s y := by
  cases x <;> cases y <;> first | exact h | rfl

theorem readingOf_withCount (x y : Cell) (n : Nat) (s : State) :
    readingOf (withCount x n s) y = if y = x then (readingOf s y).map fun r => { r with count := n } else readingOf s y := by
  cases x <;> cases y <;> rfl

theorem countsFit_putReading {x : Cell} {r : Reading} {s : State} (hr : r.count ≤ fullCount s.lim x) (hs : countsFit s) :
    countsFit (putReading x r s) := by
  intro y q hq
  rw [readingOf_putReading] at hq
  split at hq
  · next hy =>
    subst hy
    cases hq
    exact hr
  · exact hs y q hq

theorem countsFit_update (s t : State) (h : Update s t) (hs : countsFit s) : countsFit t := by
  obtain ⟨step, brk, pref⟩ := keeps_of_ports (P := countsFit) (fun _ _ _ _ _ h => h) fun _ _ h => h
  cases h with
  | count x n full =>
    intro y r hr
    rw [readingOf_withCount] at hr
    split at hr
    · next hy =>
      subst hy
      obtain ⟨q, -, rfl⟩ := Option.map_eq_some_iff.mp hr
      exact full
    · exact hs y r hr
  | reading x r full _ _ => exact countsFit_putReading full hs
  | flags x m reading =>
    intro y r hr
    rw [readingOf_putMonitor reading] at hr
    exact hs y r hr
  | farSample f q counted range =>
    obtain ⟨c, b, h, r, heq, -, -, -, hn, -⟩ := storeFarSample_form f q counted s range
    rw [heq]
    exact keeps_noted (P := countsFit) (fun _ h => h) (fun _ _ h => h) c b
      (countsFit_putReading (s := putHinge h s) hn hs)
  | port p w _ => exact step p w s hs
  | breakEnd => exact brk s hs
  | preference => exact pref s hs
  | _ => exact hs

/-- The counts of all cells but `x` lie in their ranges, and that of `x` in the range of an old capacity (R80). -/
theorem countsFit_rescale {x : Cell} {old : Nat} {s : State} (hx : ∀ r, readingOf s x = some r → r.count ≤ old * 3600000)
    (hs : ∀ y r, y ≠ x → readingOf s y = some r → r.count ≤ fullCount s.lim y) : countsFit (rescale x old s) := by
  unfold rescale
  split
  · next hn =>
    intro y r hr
    by_cases hy : y = x
    · rw [hy, hn] at hr
      cases hr
    · exact hs y r hy hr
  · next q hq =>
    intro y r hr
    rw [readingOf_putReading] at hr
    split at hr
    · next hy =>
      cases hr
      subst hy
      have hle := hx q hq
      refine Nat.div_le_of_le_mul ?_
      calc q.count * s.lim.cap.get y ≤ old * 3600000 * s.lim.cap.get y := Nat.mul_le_mul_right _ hle
        _ = old * (s.lim.cap.get y * 3600000) := by ring
    · next hy => exact hs y r hy hr

theorem Limits.put_cap {l : Limits} {i : Item} (v : Nat) (h : ∀ x, i ≠ .cap x) : (l.put i v).cap = l.cap := by
  cases i with
  | cap x => exact absurd rfl (h x)
  | _ => rfl

/-- A write of another entry leaves the capacities. -/
theorem writeLimit_cap {l : Limits} {a : LimitAddr} (w : LimitValue) (h : ∀ x, a ≠ .item (.cap x)) :
    (writeLimit l a w).1.cap = l.cap := by
  cases w with
  | value v =>
    cases a with
    | item i =>
      have hput := Limits.put_cap (l := l) (clampTo (itemRange l i) v) fun x hx => h x (hx ▸ rfl)
      unfold writeLimit
      dsimp only
      split
      · exact hput
      · exact hput
    | _ => rfl
  | entry e => cases a <;> rfl

theorem writeLimit_cap_get {l : Limits} {x y : Cell} (w : LimitValue) (h : y ≠ x) :
    (writeLimit l (.item (.cap x)) w).1.cap.get y = l.cap.get y := by
  cases w with
  | value v => exact PerCell.get_set_of_ne _ _ h
  | entry e => rfl

/-- The pieces of a change that leave the counts and the capacities alone. -/
theorem countsFit_of_cap {s : State} {l : Limits} (h : l.cap = s.lim.cap) (hs : countsFit s) : countsFit { s with lim := l } := by
  intro x r hr
  have := hs x r hr
  unfold fullCount at this ⊢
  rwa [h]

theorem readingOf_requestPass (s : State) (x : Cell) : readingOf (requestPass s) x = readingOf s x := by
  rw [requestPass_eq]
  rfl

theorem lim_requestPass (s : State) : (requestPass s).lim = s.lim := by
  rw [requestPass_eq]
  rfl

theorem countsFit_write (a : LimitAddr) (w : LimitValue) {s : State} (hs : countsFit s) :
    countsFit (applyWrite a (writeLimit s.lim a w).1 s) := by
  unfold applyWrite
  split
  · exact hs
  · by_cases ha : ∃ x, a = .item (.cap x)
    · obtain ⟨x, rfl⟩ := ha
      refine countsFit_rescale (fun r hr => ?_) fun y r hy hr => ?_ <;> rw [readingOf_requestPass] at hr
      · exact hs x r hr
      · have := hs y r hr
        rw [lim_requestPass]
        unfold fullCount at this ⊢
        rwa [writeLimit_cap_get w hy]
    · have hne (x : Cell) : a ≠ .item (.cap x) := fun h => ha ⟨x, h⟩
      have hstored := (updates_requestPass _).keeps countsFit_update (countsFit_of_cap (writeLimit_cap w hne) hs)
      unfold handOffLimit
      split
      · exact (updates_reevaluateBoth _).keeps countsFit_update hstored
      · exact (updates_reevaluateBoth _).keeps countsFit_update hstored
      · exact (updates_reevaluateBoth _).keeps countsFit_update hstored
      · exact absurd rfl (hne _)
      · exact countsFit_update _ _ (.preference _) hstored
      all_goals exact hstored

theorem readingOf_rescale_of_ne {x y : Cell} (old : Nat) (s : State) (h : y ≠ x) : readingOf (rescale x old s) y = readingOf s y := by
  unfold rescale
  split
  · rfl
  · rw [readingOf_putReading, if_neg h]

theorem lim_rescale (x : Cell) (old : Nat) (s : State) : (rescale x old s).lim = s.lim := by
  unfold rescale
  split <;> rfl

theorem countsFit_reset {s : State} (hs : countsFit s) : countsFit (resetFrom s) := by
  have cells : countsFit (resetCells s.lim.cap (resetTable (resetConditions (resetLimits s)))) := by
    have hB (r : Reading) (hr : readingOf s .B = some r) : r.count ≤ s.lim.cap.get .B * 3600000 := hs .B r hr
    have hA : ∀ r, readingOf (rescale .A (s.lim.cap.get .A) (resetTable (resetConditions (resetLimits s)))) .A = some r →
        r.count ≤ fullCount Limits.default .A := by
      intro r hr
      unfold rescale at hr
      split at hr
      · next hn =>
        rw [hn] at hr
        cases hr
      · next q hq =>
        rw [readingOf_putReading, if_pos rfl] at hr
        cases hr
        refine Nat.div_le_of_le_mul ?_
        calc q.count * _ ≤ s.lim.cap.get .A * 3600000 * Limits.default.cap.get .A := Nat.mul_le_mul_right _ (hs .A q hq)
          _ = s.lim.cap.get .A * (Limits.default.cap.get .A * 3600000) := by ring
    refine countsFit_rescale (fun r hr => ?_) fun y r hy hr => ?_
    · rw [readingOf_rescale_of_ne _ _ (by simp)] at hr
      exact hB r hr
    · cases y with
      | A => rw [lim_rescale]; exact hA r hr
      | B => exact absurd rfl hy
  exact ((updates_resetControllers _).trans <| (updates_reevaluateBoth _).trans <| (updates_requestPass _).trans
    (updates_placeAnswer _ _ _)).keeps countsFit_update cells

theorem countsFit_major (s t : State) (h : Major s t) (hs : countsFit s) : countsFit t := by
  cases h with
  | write a w => exact countsFit_write a w hs
  | lock => exact hs
  | die hot => exact (updates_reevaluateBoth { s with dieHot := hot }).keeps countsFit_update hs
  | reset => exact countsFit_reset hs
  | powerOn => exact fun x r hr => by cases x <;> cases hr

/-- The stored readings and the latest accepted far sample in their ranges. -/
def readingsFit (s : State) : Prop := readingsOk s

theorem readingsFit_putReading {x : Cell} {r : Reading} {s : State} (hr : readingOk r) (hs : readingsFit s) :
    readingsFit (putReading x r s) := by
  obtain ⟨hread, hfar⟩ := (readingsOk_iff s).mp hs
  refine (readingsOk_iff _).mpr ⟨fun y q hq => ?_, hfar⟩
  rw [readingOf_putReading] at hq
  split at hq
  · cases hq
    exact hr
  · exact hread y q hq

theorem readingsFit_update (s t : State) (h : Update s t) (hs : readingsFit s) : readingsFit t := by
  obtain ⟨step, brk, pref⟩ := keeps_of_ports (P := readingsFit) (fun _ _ _ _ _ h => h) fun _ _ h => h
  obtain ⟨hread, hfar⟩ := (readingsOk_iff s).mp hs
  cases h with
  | count x n full =>
    refine (readingsOk_iff _).mpr ⟨fun y r hr => ?_, hfar⟩
    rw [readingOf_withCount] at hr
    split at hr
    · obtain ⟨q, hq, rfl⟩ := Option.map_eq_some_iff.mp hr
      exact hread y q hq
    · exact hread y r hr
  | reading x r _ range _ => exact readingsFit_putReading (range hs) hs
  | flags x m reading =>
    refine (readingsOk_iff _).mpr ⟨fun y r hr => ?_, hfar⟩
    rw [readingOf_putMonitor reading] at hr
    exact hread y r hr
  | hinge h latest _ _ => exact (readingsOk_iff _).mpr ⟨hread, fun f hf => hfar f (latest ▸ hf)⟩
  | farSample f q counted range =>
    obtain ⟨c, b, h, r, heq, -, hlatest, -, -, hr⟩ := storeFarSample_form f q counted s range
    rw [heq]
    refine keeps_noted (P := readingsFit) (fun _ h => h) (fun _ _ h => h) c b (readingsFit_putReading hr ?_)
    refine (readingsOk_iff _).mpr ⟨hread, fun g hg => ?_⟩
    rw [show (putHinge h s).hinge.latest = some f from hlatest] at hg
    cases hg
    exact range
  | port p w _ => exact step p w s hs
  | breakEnd => exact brk s hs
  | preference => exact pref s hs
  | _ => exact hs

theorem readingsFit_raw (s t : State) (h : Raw s t) (hs : readingsFit s) : readingsFit t := by
  cases h with
  | limits => exact hs
  | zone => exact hs
  | rescale x old =>
    unfold rescale
    split
    · exact hs
    · next r hr => exact readingsFit_putReading (((readingsOk_iff s).mp hs).1 x r hr) hs

/-- Settles O8: samples saturate, counts are clamped, anchored or rescaled with their capacity, and nothing else touches a record. -/
theorem stepKeepsCellRecordsInRange : Obligations.StepKeepsCellRecordsInRange := fun s t hc hr hstep =>
  ⟨(countsOk_iff t).mpr <| keeps_of_step (P := countsFit) (fun _ _ h => h.keeps countsFit_update countsFit_major) (fun _ h => h)
      (fun _ _ h => h) hstep ((countsOk_iff s).mp hc),
    keeps_of_step (P := readingsFit) (fun _ _ => keeps_of_pieces readingsFit_update readingsFit_raw fun _ => rfl) (fun _ h => h)
      (fun _ _ h => h) hstep hr⟩

end Sys2Proof.Machine
end

section
/-! The other invariants that every step keeps: the request mark, overdraw, counters, receiver, the ladder, the charge sessions, the
ports and the arbiter; and what may change a limit or clear the lock. -/

namespace Sys2Proof.Machine

/-! ### The request mark, overdraw, counters and the receiver (2.1, 6.6, 11.4, 10.1) -/

theorem requestOk_of_arbMove (s t : State) (h : ArbMove s t) (hs : requestOk s) : requestOk t := by
  cases h with
  | stay => exact hs
  | _ => exact requestOk_withRequest hs

theorem requestOk_portStepped (p : PortId) (w : PortStep) {s : State} (hs : requestOk s) : requestOk (portStepped p w s) := by
  unfold portStepped requestOk
  dsimp only
  split
  · exact hs
  · exact requestOk_withRequest hs

theorem requestOk_update (s t : State) (h : Update s t) (hs : requestOk s) : requestOk t := by
  cases h with
  | budget b request _ => exact request hs
  | farSample f q counted range =>
    obtain ⟨c, b, h, r, heq, -⟩ := storeFarSample_form f q counted s range
    rw [heq]
    exact keeps_noted (P := fun s => requestOk s) (fun _ => requestOk_withRequest) (fun _ _ h => h) c b hs
  | port p w _ => exact keeps_stepPort (P := fun s => requestOk s) requestOk_of_arbMove (requestOk_portStepped p w hs)
  | breakEnd => exact keeps_breakExpiry (P := fun s => requestOk s) requestOk_of_arbMove (fun _ _ h => h) hs hs
  | preference => exact keeps_preferenceChange (P := fun s => requestOk s) requestOk_of_arbMove hs
  | _ => exact hs

/-- An invariant of no limit, die zone and reading is kept by the pieces. -/
theorem keeps_raw {P : State → Prop} (h : ∀ s lim locked dieHot mon, P s → P { s with lim := lim, locked := locked, dieHot := dieHot, mon := mon })
    (s t : State) (hr : Raw s t) (hs : P s) : P t := by
  cases hr with
  | limits l b _ => exact h s l b s.dieHot s.mon hs
  | zone hot => exact h s s.lim s.locked hot s.mon hs
  | rescale x old =>
    unfold rescale
    split
    · exact hs
    · exact h s s.lim s.locked s.dieHot _ hs

theorem overdrawOk_update (s t : State) (h : Update s t) (hs : overdrawOk s) : overdrawOk t := by
  obtain ⟨step, brk, pref⟩ := keeps_of_ports (P := fun s => overdrawOk s) (fun _ _ _ _ _ h => h) fun _ _ h => h
  cases h with
  | load l overdraw => exact overdraw hs
  | farSample f q counted range =>
    obtain ⟨c, b, h, r, heq, -⟩ := storeFarSample_form f q counted s range
    rw [heq]
    exact keeps_noted (P := fun s => overdrawOk s) (fun _ h => h) (fun _ _ h => h) c b hs
  | port p w _ => exact step p w s hs
  | breakEnd => exact brk s hs
  | preference => exact pref s hs
  | _ => exact hs

theorem countersOk_update (s t : State) (h : Update s t) (hs : countersOk s) : countersOk t := by
  obtain ⟨step, brk, pref⟩ := keeps_of_ports (P := fun s => countersOk s) (fun _ _ _ _ _ h => h) fun _ _ h => h
  cases h with
  | cond c counters => exact counters hs
  | farSample f q counted range =>
    obtain ⟨c, b, h, r, heq, -⟩ := storeFarSample_form f q counted s range
    rw [heq]
    exact keeps_noted (P := fun s => countersOk s) (fun _ h => h) (fun _ _ h => h) c b hs
  | port p w _ => exact step p w s hs
  | breakEnd => exact brk s hs
  | preference => exact pref s hs
  | _ => exact hs

theorem receiverOk_update (s t : State) (h : Update s t) (hs : receiverOk s) : receiverOk t := by
  obtain ⟨step, brk, pref⟩ := keeps_of_ports (P := fun s => receiverOk s) (fun _ _ _ _ _ h => h) fun _ _ h => h
  cases h with
  | link l receiver => exact receiver hs
  | farSample f q counted range =>
    obtain ⟨c, b, h, r, heq, -⟩ := storeFarSample_form f q counted s range
    rw [heq]
    exact keeps_noted (P := fun s => receiverOk s) (fun _ h => h) (fun _ _ h => h) c b hs
  | port p w _ => exact step p w s hs
  | breakEnd => exact brk s hs
  | preference => exact pref s hs
  | _ => exact hs

@[simp] theorem isSome_downBy (n : Nat) (t : Option Nat) : (downBy n t).isSome = t.isSome := by simp [downBy]

theorem requestOk_advance {s : State} (h : requestOk s) : requestOk (advance s) := by
  simpa [requestOk, advance, Budget.tick] using h

theorem receiverOk_advance {s : State} (h : receiverOk s) : receiverOk (advance s) := by
  simpa [receiverOk, advance, Link.tick] using h

/-- Settles O9: each of the four blocks sees to its own invariant wherever it moves. -/
theorem stepKeepsMarkOverdrawCountersAndReceiver : Obligations.StepKeepsMarkOverdrawCountersAndReceiver := fun _ _ hstep =>
  ⟨keeps_of_step (P := fun s => requestOk s)
      (fun _ _ => keeps_of_pieces requestOk_update (keeps_raw fun _ _ _ _ _ h => h) fun _ => rfl)
      (fun _ => requestOk_advance) (fun _ _ h => h) hstep,
    keeps_of_step (P := fun s => overdrawOk s)
      (fun _ _ => keeps_of_pieces overdrawOk_update (keeps_raw fun _ _ _ _ _ h => h) fun _ => rfl)
      (fun _ h => h) (fun _ _ h => h) hstep,
    keeps_of_step (P := fun s => countersOk s)
      (fun _ _ => keeps_of_pieces countersOk_update (keeps_raw fun _ _ _ _ _ h => h) fun _ => rfl)
      (fun _ h => h) (fun _ _ h => h) hstep,
    keeps_of_step (P := fun s => receiverOk s)
      (fun _ _ => keeps_of_pieces receiverOk_update (keeps_raw fun _ _ _ _ _ h => h) fun _ => receiverOk_idle rfl rfl)
      (fun _ => receiverOk_advance) (fun _ _ h => h) hstep⟩

/-! ### The ladder (7.3) -/

theorem ladderOk_iff (s : State) :
    ladderOk s = true ↔ s.hinge.ladder ∧ ((readingOf s .B).isSome = true ↔ s.hinge.dataState ≠ .awaiting) := by
  have hb (b c : Bool) : (b == c) = true ↔ (b = true ↔ c = true) := by cases b <;> cases c <;> simp
  have h : ladderOk s = (s.hinge.ladder && ((readingOf s .B).isSome == (s.hinge.dataState != .awaiting))) := rfl
  rw [h, Bool.and_eq_true, hb, bne_iff_ne]

theorem ladderOk_of_readingB {s t : State} (hh : t.hinge = s.hinge) (hr : (readingOf t .B).isSome = (readingOf s .B).isSome)
    (hs : ladderOk s) : ladderOk t := by
  rw [ladderOk_iff] at hs ⊢
  rwa [hh, hr]

theorem isSome_readingOf_withCount (x y : Cell) (n : Nat) (s : State) :
    (readingOf (withCount x n s) y).isSome = (readingOf s y).isSome := by
  rw [readingOf_withCount]
  split <;> simp

theorem ladderOk_putReading {x : Cell} {r : Reading} {s : State} (h : x = .B → (readingOf s .B).isSome) (hs : ladderOk s) :
    ladderOk (putReading x r s) := by
  refine ladderOk_of_readingB (s := s) rfl ?_ hs
  rw [readingOf_putReading]
  split
  · next hx => exact (h hx.symm).symm
  · rfl

theorem ladderOk_update (s t : State) (h : Update s t) (hs : ladderOk s) : ladderOk t := by
  obtain ⟨step, brk, pref⟩ := keeps_of_ports (P := fun s => ladderOk s) (fun _ _ _ _ _ h => h) fun _ _ h => h
  cases h with
  | count x n _ => exact ladderOk_of_readingB (s := s) rfl (isSome_readingOf_withCount x .B n s) hs
  | reading x r _ _ present => exact ladderOk_putReading (fun hx => present hx hs) hs
  | flags x m reading => exact ladderOk_of_readingB (s := s) rfl (by rw [readingOf_putMonitor reading]) hs
  | hinge h latest awaits ladder =>
    obtain ⟨hladder, hread⟩ := (ladderOk_iff s).mp hs
    exact (ladderOk_iff _).mpr ⟨ladder hladder, hread.trans (not_congr awaits.symm)⟩
  | farSample f q counted range =>
    obtain ⟨hladder, -⟩ := (ladderOk_iff s).mp hs
    obtain ⟨c, b, h, r, heq, ladder, -, hd, -⟩ := storeFarSample_form f q counted s range
    rw [heq]
    exact keeps_noted (P := fun s => ladderOk s) (fun _ h => h) (fun _ _ h => h) c b
      ((ladderOk_iff _).mpr ⟨ladder hladder, by rw [readingOf_putReading]; exact ⟨fun _ => hd, fun _ => rfl⟩⟩)
  | port p w _ => exact step p w s hs
  | breakEnd => exact brk s hs
  | preference => exact pref s hs
  | _ => exact hs

theorem ladderOk_raw (s t : State) (h : Raw s t) (hs : ladderOk s) : ladderOk t := by
  cases h with
  | limits => exact hs
  | zone => exact hs
  | rescale x old =>
    unfold rescale
    split
    · exact hs
    · next r hr => exact ladderOk_putReading (fun hx => by rw [← hx, hr]; rfl) hs

theorem ladderOk_advance {s : State} (h : ladderOk s) : ladderOk (advance s) := by
  obtain ⟨hladder, hread⟩ := (ladderOk_iff s).mp h
  exact (ladderOk_iff _).mpr ⟨(Hinge.ladder_iff _).mpr
    (by simpa only [advance, Hinge.tick, isSome_downBy] using (Hinge.ladder_iff _).mp hladder), hread⟩

/-- Settles O10: a failed exchange climbs the ladder, a GOOD one descends it with its sample, and the degraded timer moves it on. -/
theorem stepKeepsDataStateLadder : Obligations.StepKeepsDataStateLadder := fun _ _ hs hstep =>
  keeps_of_step (P := fun s => ladderOk s) (fun _ _ => keeps_of_pieces ladderOk_update ladderOk_raw fun _ => rfl)
    (fun _ => ladderOk_advance) (fun _ _ h => h) hstep hs

/-! ### The charge sessions (5) -/

/-- Both phase machines hold their sessions and runs as their phases have them. -/
def sessionsOk (s : State) : Prop := ∀ x, chargeOk (s.chg.get x)

theorem chargesOk_iff (s : State) : chargesOk s = true ↔ sessionsOk s := by
  simp only [chargesOk, Bool.and_eq_true]
  exact ⟨fun h x => by cases x; exacts [h.1, h.2], fun h => ⟨h .A, h .B⟩⟩

theorem chargeOk_withoutInput {c : Charge} (h : chargeOk c) : chargeOk (withoutInput c) := by
  simp only [chargeOk_iff] at h ⊢
  unfold withoutInput
  split <;> simp_all [Phase.inSession]

theorem sessionsOk_of_arbMove (s t : State) (h : ArbMove s t) (hs : sessionsOk s) : sessionsOk t := by
  cases h with
  | opened dest =>
    intro x
    cases x
    · exact chargeOk_withoutInput (hs .A)
    · exact chargeOk_withoutInput (hs .B)
  | _ => exact hs

theorem sessionsOk_update (s t : State) (h : Update s t) (hs : sessionsOk s) : sessionsOk t := by
  cases h with
  | charge x c session =>
    intro y
    by_cases hy : y = x
    · subst hy
      rw [putCharge_chg, PerCell.get_set_self]
      exact session (hs y)
    · rw [putCharge_chg, PerCell.get_set_of_ne _ _ hy]
      exact hs y
  | farSample f q counted range =>
    obtain ⟨c, b, h, r, heq, -⟩ := storeFarSample_form f q counted s range
    rw [heq]
    exact keeps_noted (P := sessionsOk) (fun _ h => h) (fun _ _ h => h) c b hs
  | port p w _ => exact keeps_stepPort (P := sessionsOk) sessionsOk_of_arbMove hs
  | breakEnd => exact keeps_breakExpiry (P := sessionsOk) sessionsOk_of_arbMove (fun _ _ h => h) hs hs
  | preference => exact keeps_preferenceChange (P := sessionsOk) sessionsOk_of_arbMove hs
  | _ => exact hs

theorem chargeOk_tick {c : Charge} (h : chargeOk c) : chargeOk c.tick := by
  simp only [chargeOk_iff] at h ⊢
  unfold Charge.tick
  split <;> simp_all

theorem sessionsOk_advance {s : State} (h : sessionsOk s) : sessionsOk (advance s) := by
  intro x
  cases x
  · exact chargeOk_tick (h .A)
  · exact chargeOk_tick (h .B)

/-- Settles O11: every entry to a phase sets the session and the runs as that phase has them. -/
theorem stepKeepsChargeSessions : Obligations.StepKeepsChargeSessions := fun s t hs hstep =>
  (chargesOk_iff t).mpr <| keeps_of_step (P := sessionsOk)
    (fun _ _ => keeps_of_pieces sessionsOk_update (keeps_raw fun _ _ _ _ _ h => h) fun _ x => by cases x <;> rfl)
    (fun _ => sessionsOk_advance) (fun _ _ h => h) hstep ((chargesOk_iff s).mp hs)

/-! ### The ports (8.7) -/

/-- A port within its ceiling in force. -/
def portWithin (p : PortId) (s : State) : Prop := (s.port.get p).within (portCeiling s p)

/-- A port whose current is bounded by its held contract. -/
def portSound (p : PortId) (s : State) : Prop := (s.port.get p).sound

/-- Both ports within their ceilings. -/
def portsWithin (s : State) : Prop := ∀ p, portWithin p s

theorem portsOk_iff (s : State) : portsOk s = true ↔ portsWithin s := by
  simp only [portsOk, Bool.and_eq_true, portOk_eq]
  exact ⟨fun h p => by cases p; exacts [h.1, h.2], fun h => ⟨h .cable, h .coil⟩⟩

theorem portWithin_of_arbMove {p : PortId} (s t : State) (h : ArbMove s t) (hs : portWithin p s) : portWithin p t := by
  cases h with
  | switched q c _ held =>
    by_cases hp : p = q
    · subst hp
      have hst := Port.within_cases hs
      unfold portWithin switchedTo
      simp only [held, reduceCtorEq, false_and, Option.some.injEq, false_or, exists_eq_left'] at hst
      simp only [withRequest, PerPort.get_set_self]
      exact Port.within_of_some held hst.1 (Nat.min_le_left _ _) ((Nat.min_le_right _ _).trans (Nat.div_mul_le_self _ 10))
    · unfold portWithin switchedTo
      simp only [withRequest, PerPort.get_set_of_ne _ _ hp]
      exact hs
  | _ => exact hs

theorem portSound_of_arbMove {p : PortId} (s t : State) (h : ArbMove s t) (hs : portSound p s) : portSound p t := by
  cases h with
  | switched q c _ held =>
    by_cases hp : p = q
    · subst hp
      unfold portSound Port.sound at *
      simp only [held, reduceCtorEq, false_and, Option.some.injEq, false_or, exists_eq_left'] at hs
      simp only [switchedTo, withRequest, PerPort.get_set_self]
      exact .inr ⟨c, held, hs.1, Nat.min_le_left _ _⟩
    · unfold portSound switchedTo
      simp only [withRequest, PerPort.get_set_of_ne _ _ hp]
      exact hs
  | _ => exact hs

theorem portWithin_stepPort {p : PortId} {w : PortStep} {s : State} (hw : w.port.within (portCeiling s p)) :
    portWithin p (stepPort p w s) := by
  refine keeps_stepPort (P := portWithin p) portWithin_of_arbMove ?_
  change ((s.port.set p w.port).get p).within (portCeiling s p) = true
  rwa [PerPort.get_set_self]

/-- A port's step leaves the other port where it is. -/
theorem keeps_stepPort_of_ne {P : State → Prop} (hmove : ∀ s t, ArbMove s t → P s → P t) {p r : PortId} (hr : r ≠ p)
    (hP : ∀ u v : State, v.port.get r = u.port.get r → portCeiling v r = portCeiling u r → P u → P v) (w : PortStep) {s : State}
    (hs : P s) : P (stepPort p w s) :=
  keeps_stepPort hmove (hP s (portStepped p w s) (PerPort.get_set_of_ne _ _ hr) rfl hs)

theorem portWithin_congr {r : PortId} (u v : State) (hport : v.port.get r = u.port.get r)
    (hceil : portCeiling v r = portCeiling u r) (h : portWithin r u) : portWithin r v := by
  unfold portWithin at *
  rwa [hport, hceil]

theorem portSound_congr {r : PortId} (u v : State) (hport : v.port.get r = u.port.get r) (_ : portCeiling v r = portCeiling u r)
    (h : portSound r u) : portSound r v := by
  unfold portSound at *
  rwa [hport]

theorem portsWithin_stepPort {p : PortId} {w : PortStep} {s : State} (hw : w.port.within (portCeiling s p)) (hs : portsWithin s) :
    portsWithin (stepPort p w s) := by
  intro r
  by_cases hr : r = p
  · subst hr
    exact portWithin_stepPort hw
  · exact keeps_stepPort_of_ne portWithin_of_arbMove hr portWithin_congr w (hs r)

theorem portsWithin_of_arbMove (s t : State) (h : ArbMove s t) (hs : portsWithin s) : portsWithin t :=
  fun p => portWithin_of_arbMove s t h (hs p)

theorem portsWithin_update (s t : State) (h : Update s t) (hs : portsWithin s) : portsWithin t := by
  cases h with
  | farSample f q counted range =>
    obtain ⟨c, b, h, r, heq, -⟩ := storeFarSample_form f q counted s range
    rw [heq]
    exact keeps_noted (P := portsWithin) (fun _ h => h) (fun _ _ h => h) c b hs
  | port p w within => exact portsWithin_stepPort (within (portOk_eq s p ▸ hs p)) hs
  | breakEnd => exact keeps_breakExpiry (P := portsWithin) portsWithin_of_arbMove (fun _ _ h => h) hs hs
  | preference => exact keeps_preferenceChange (P := portsWithin) portsWithin_of_arbMove hs
  | _ => exact hs

theorem keeps_requestPassIf {P : State → Prop} (h : ∀ s b, P s → P { s with budget := b }) (c : Bool) {s : State} (hs : P s) :
    P (requestPassIf c s) := by
  rw [requestPassIf_eq]
  split
  · exact h s _ hs
  · exact hs

/-- Re-evaluation brings a port within the ceiling in force (R142). -/
theorem portWithin_reevaluatePort {p : PortId} {s : State} (h : portSound p s) : portWithin p (reevaluatePort p s) := by
  unfold reevaluatePort
  dsimp only
  split
  · exact keeps_requestPassIf (P := portWithin p) (fun _ _ h => h) _ (portWithin_stepPort (within_reevaluate _ _ h))
  · next hst =>
    rcases h with ⟨hn, h0⟩ | ⟨c, -, hready, -⟩
    · exact Port.within_of_none hn h0
    · rcases hready with h | h | h <;> simp [h, PortState.reevaluated] at hst

/-- Re-evaluation of a port leaves the other where it is. -/
theorem keeps_reevaluatePort_of_ne {P : State → Prop} (hmove : ∀ s t, ArbMove s t → P s → P t) {p r : PortId} (hr : r ≠ p)
    (hP : ∀ u v : State, v.port.get r = u.port.get r → portCeiling v r = portCeiling u r → P u → P v) {s : State} (hs : P s) :
    P (reevaluatePort p s) := by
  unfold reevaluatePort
  dsimp only
  split
  · exact keeps_requestPassIf (fun u b => hP u _ rfl rfl) _ (keeps_stepPort_of_ne hmove hr hP _ hs)
  · exact hs

/-- Re-evaluation of both ports, in either order, brings both within their ceilings (R142). -/
theorem portsWithin_reevaluateBoth {s : State} (h : ∀ p, portSound p s) : portsWithin (reevaluateBoth s) := by
  have both {p r : PortId} (hne : r ≠ p) : portWithin p (reevaluatePort r (reevaluatePort p s)) ∧
      portWithin r (reevaluatePort r (reevaluatePort p s)) :=
    ⟨keeps_reevaluatePort_of_ne portWithin_of_arbMove hne.symm portWithin_congr (portWithin_reevaluatePort (h p)),
      portWithin_reevaluatePort (keeps_reevaluatePort_of_ne portSound_of_arbMove hne portSound_congr (h r))⟩
  unfold reevaluateBoth
  split
  · obtain ⟨hcoil, hcable⟩ := both (p := .coil) (r := .cable) (by simp)
    intro p
    cases p <;> assumption
  · obtain ⟨hcable, hcoil⟩ := both (p := .cable) (r := .coil) (by simp)
    intro p
    cases p <;> assumption

theorem portSound_of_within {s : State} (h : portsWithin s) (p : PortId) : portSound p s := Port.sound_of_within (h p)

theorem Limits.put_ceil {l : Limits} {i : Item} (v : Nat) (h : ∀ p, i ≠ .ceil p) : (l.put i v).ceil = l.ceil := by
  cases i with
  | ceil p => exact absurd rfl (h p)
  | _ => rfl

/-- A write of another entry leaves the port ceilings. -/
theorem writeLimit_ceil {l : Limits} {a : LimitAddr} (w : LimitValue) (h : ∀ p, a ≠ .item (.ceil p)) :
    (writeLimit l a w).1.ceil = l.ceil := by
  cases w with
  | value v =>
    cases a with
    | item i =>
      have hput := Limits.put_ceil (l := l) (clampTo (itemRange l i) v) fun x hx => h x (hx ▸ rfl)
      unfold writeLimit
      dsimp only
      split
      · exact hput
      · exact hput
    | _ => rfl
  | entry e => cases a <;> rfl

theorem portsWithin_rescale (x : Cell) (old : Nat) {s : State} (hs : portsWithin s) : portsWithin (rescale x old s) := by
  unfold rescale
  split <;> exact hs

theorem portsWithin_write (a : LimitAddr) (w : LimitValue) {s : State} (hs : portsWithin s) :
    portsWithin (applyWrite a (writeLimit s.lim a w).1 s) := by
  have sound (p : PortId) : portSound p (requestPass { s with lim := (writeLimit s.lim a w).1 }) := by
    rw [requestPass_eq]
    exact portSound_of_within hs p
  unfold applyWrite
  split
  · exact hs
  · by_cases ha : ∃ p, a = .item (.ceil p)
    · obtain ⟨p, rfl⟩ := ha
      exact portsWithin_reevaluateBoth sound
    · have stored : portsWithin (requestPass { s with lim := (writeLimit s.lim a w).1 }) := by
        rw [requestPass_eq]
        intro p
        refine portWithin_congr s _ rfl ?_ (hs p)
        unfold portCeiling
        simp only [withRequest, writeLimit_ceil w fun p hp => ha ⟨p, hp⟩]
      unfold handOffLimit
      split
      · exact portsWithin_reevaluateBoth sound
      · exact portsWithin_reevaluateBoth sound
      · exact portsWithin_reevaluateBoth sound
      · exact portsWithin_rescale _ _ stored
      · exact portsWithin_update _ _ (.preference _) stored
      all_goals exact stored

/-- The reset steps before the ports' leave their records. -/
theorem port_resetControllers (s : State) :
    (resetLoad (resetBranch .B (resetBranch .A (resetCharge .B (resetCharge .A s))))).port = s.port := by
  have branch (x : Cell) (u : State) : (resetBranch x u).port = u.port := by
    unfold resetBranch moveBranch zeroForbidden
    dsimp only
    split
    · rfl
    · rw [requestPass_eq]
      split <;> rfl
  have charge (x : Cell) (u : State) : (resetCharge x u).port = u.port := by
    unfold resetCharge
    rw [moveCharge_eq]
    rfl
  rw [show (resetLoad (resetBranch .B (resetBranch .A (resetCharge .B (resetCharge .A s))))).port =
    (resetBranch .B (resetBranch .A (resetCharge .B (resetCharge .A s)))).port from rfl, branch, branch, charge, charge]

theorem port_resetCells (old : PerCell Nat) (s : State) : (resetCells old s).port = s.port := by
  have (x : Cell) (n : Nat) (u : State) : (rescale x n u).port = u.port := by
    unfold rescale
    split <;> rfl
  unfold resetCells
  rw [this, this]

theorem portsWithin_reset {s : State} (hs : portsWithin s) : portsWithin (resetFrom s) := by
  have blocks : portsWithin (resetBlocks s.lim.cap (resetLimits s)) := by
    refine portsWithin_reevaluateBoth fun p => ?_
    unfold portSound
    rw [port_resetControllers, port_resetCells]
    exact portSound_of_within hs p
  exact ((updates_requestPass _).trans (updates_placeAnswer _ _ _)).keeps portsWithin_update blocks

theorem portsWithin_major (s t : State) (h : Major s t) (hs : portsWithin s) : portsWithin t := by
  cases h with
  | write a w => exact portsWithin_write a w hs
  | lock => exact hs
  | die hot => exact portsWithin_reevaluateBoth fun p => portSound_of_within hs p
  | reset => exact portsWithin_reset hs
  | powerOn => exact fun p => by cases p <;> rfl

theorem portsWithin_advance {s : State} (h : portsWithin s) : portsWithin (advance s) := by
  intro p
  have hp := Port.within_congr (q' := (s.port.get p).tick) rfl rfl rfl (h p)
  cases p <;> exact hp

/-! ### The arbiter (9.1) -/

/-- A port keeps its eligibility where its state and contract stay. -/
theorem eligible_congr {s t : State} {p : PortId} (hst : (t.port.get p).st = (s.port.get p).st)
    (hh : (t.port.get p).held = (s.port.get p).held) : eligible t p = eligible s p := by
  simp [eligible, Port.eligible, hst, hh]

theorem arbiterOk_iff (s : State) :
    arbiterOk s = true ↔ (∀ p, s.arb.st = .active p → eligible s p = true ∧ s.arb.brk = none) ∧
      (s.arb.st = .changeover → s.arb.brk.isSome = true) ∧
      ((∀ p, s.arb.st ≠ .active p) → s.budget.inputCmd = none) := by
  unfold arbiterOk
  cases h : s.arb.st <;> simp

theorem arbiterOk_switchOpened {dest : ArbState} (s : State) (h : dest = .none ∨ dest = .changeover) :
    arbiterOk (switchOpened dest s) := by
  rcases h with rfl | rfl <;> rfl

theorem arbiterOk_switchedTo {p : PortId} {c : Held} {s : State} (he : eligible s p) (hb : s.arb.brk = none) :
    arbiterOk (switchedTo p c s) := by
  have : eligible (switchedTo p c s) p = eligible s p := eligible_congr (by simp [switchedTo, withRequest])
    (by simp [switchedTo, withRequest])
  refine (arbiterOk_iff _).mpr ⟨fun q hq => ?_, by simp [switchedTo, withRequest], fun h => absurd rfl (h p)⟩
  cases hq
  exact ⟨this.trans he, hb⟩

theorem arbiterOk_goActive {p : PortId} {s : State} (he : eligible s p) (hb : s.arb.brk = none) : arbiterOk (goActive p s) := by
  obtain ⟨c, hc⟩ := Port.held_of_eligible he
  rw [goActive_eq p c s hc]
  exact arbiterOk_switchedTo he hb

/-- The arbiter's part of a port step, where the invariant held up to the eligibility of that port (R147, R148). -/
theorem arbiterOk_handEligibility {p : PortId} {before : Bool} {s : State}
    (hactive : ∀ q, s.arb.st = .active q → (q = p → before = true) ∧ (q ≠ p → eligible s q = true) ∧ s.arb.brk = none)
    (hchange : s.arb.st = .changeover → s.arb.brk.isSome = true)
    (hcmd : (∀ q, s.arb.st ≠ .active q) → s.budget.inputCmd = none) : arbiterOk (handEligibility p before s) := by
  have whole (h : ∀ q, s.arb.st = .active q → eligible s q = true) : arbiterOk s :=
    (arbiterOk_iff s).mpr ⟨fun q hq => ⟨h q hq, (hactive q hq).2.2⟩, hchange, hcmd⟩
  unfold handEligibility
  split
  · next hsame =>
    refine whole fun q hq => ?_
    obtain ⟨hp, hne, -⟩ := hactive q hq
    by_cases h : q = p
    · subst h
      exact hsame ▸ hp rfl
    · exact hne h
  · next hdiff =>
    split
    · unfold arbLoss
      split
      · next q hq =>
        split
        · rw [leaveActive_eq]
          exact arbiterOk_switchOpened s (by split <;> simp)
        · next hne => exact whole fun r hr => (hactive r hr).2.1 (by rw [hq] at hr; cases hr; exact hne)
      · next h => exact whole fun r hr => by rw [h] at hr; cases hr
      · next h => exact whole fun r hr => by rw [h] at hr; cases hr
    · next hbefore =>
      have he : eligible s p = true := by simp_all
      unfold arbGain
      split
      · next hst =>
        split
        · next hb =>
          rw [goIdle_eq]
          exact (arbiterOk_iff _).mpr ⟨by simp [withRequest], fun _ => hb, fun _ => hcmd (by simp [hst])⟩
        · next hb => exact arbiterOk_goActive he (by simpa using hb)
      · next q hq =>
        split
        · rw [leaveActive_eq]
          exact arbiterOk_switchOpened s (.inr rfl)
        · refine whole fun r hr => (hactive r hr).2.1 fun hr' => ?_
          exact hbefore ((hactive r hr).1 hr')
      · next h => exact whole fun r hr => by rw [h] at hr; cases hr

theorem inputCmd_portStepped (p : PortId) (w : PortStep) (s : State) :
    (portStepped p w s).budget.inputCmd = s.budget.inputCmd := by
  unfold portStepped
  dsimp only
  split <;> rfl

theorem arbiterOk_stepPort (p : PortId) (w : PortStep) {s : State} (hs : arbiterOk s) : arbiterOk (stepPort p w s) := by
  obtain ⟨hactive, hchange, hcmd⟩ := (arbiterOk_iff s).mp hs
  rw [stepPort_eq]
  refine arbiterOk_handEligibility (fun q hq => ?_) hchange fun h => (inputCmd_portStepped p w s).trans (hcmd h)
  obtain ⟨he, hb⟩ := hactive q hq
  refine ⟨fun h => h ▸ he, fun h => ?_, hb⟩
  rw [← he]
  have : (portStepped p w s).port.get q = s.port.get q := PerPort.get_set_of_ne _ _ h
  exact eligible_congr (by rw [this]) (by rw [this])

theorem arbiterOk_preferenceChange {s : State} (hs : arbiterOk s) : arbiterOk (preferenceChange s) := by
  unfold preferenceChange
  split
  · split
    · rw [leaveActive_eq]
      exact arbiterOk_switchOpened s (.inr rfl)
    · exact hs
  · exact hs
  · exact hs

theorem arbiterOk_breakExpiry {s : State} (hs : arbiterOk s) : arbiterOk (breakExpiry s) := by
  obtain ⟨hactive, hchange, hcmd⟩ := (arbiterOk_iff s).mp hs
  unfold breakExpiry
  split
  · dsimp only
    split
    · next hst =>
      unfold endChangeover
      split
      · next p hp => exact arbiterOk_goActive (s := stopBreak s) (eligible_of_chosenPort hp) rfl
      · rw [goIdle_eq]
        exact (arbiterOk_iff _).mpr ⟨by simp [withRequest], by simp [withRequest], fun _ => hcmd (by simp [hst])⟩
    · next hst => exact (arbiterOk_iff _).mpr ⟨fun q hq => ⟨(hactive q hq).1, rfl⟩, fun h => absurd h hst, hcmd⟩
  · exact hs

theorem arbiterOk_update (s t : State) (h : Update s t) (hs : arbiterOk s) : arbiterOk t := by
  cases h with
  | budget b _ input =>
    obtain ⟨hactive, hchange, hcmd⟩ := (arbiterOk_iff s).mp hs
    refine (arbiterOk_iff _).mpr ⟨hactive, hchange, fun h => input ?_ (hcmd h)⟩
    unfold activePort
    cases hst : s.arb.st with
    | active p => exact absurd hst (h p)
    | _ => rfl
  | farSample f q counted range =>
    obtain ⟨c, b, h, r, heq, -⟩ := storeFarSample_form f q counted s range
    rw [heq]
    exact keeps_noted (P := fun s => arbiterOk s) (fun _ h => h) (fun _ _ h => h) c b hs
  | port p w _ => exact arbiterOk_stepPort p w hs
  | breakEnd => exact arbiterOk_breakExpiry hs
  | preference => exact arbiterOk_preferenceChange hs
  | _ => exact hs

theorem arbiterOk_advance {s : State} (h : arbiterOk s) : arbiterOk (advance s) := by
  obtain ⟨hactive, hchange, hcmd⟩ := (arbiterOk_iff s).mp h
  refine (arbiterOk_iff _).mpr ⟨fun p hp => ?_, fun hst => by simpa [advance] using hchange hst, hcmd⟩
  obtain ⟨he, hb⟩ := hactive p hp
  exact ⟨by cases p <;> exact he, by simp [advance, hb, downBy]⟩

/-- Settles O12: every port step caps Ie, a change of a ceiling re-evaluates the ports, and a change of eligibility reaches the arbiter
in the same event. -/
theorem stepKeepsPortCurrentsAndActivePort : Obligations.StepKeepsPortCurrentsAndActivePort := fun s t hstep =>
  ⟨fun hs => (portsOk_iff t).mpr <| keeps_of_step (P := portsWithin) (fun _ _ h => h.keeps portsWithin_update portsWithin_major)
      (fun _ => portsWithin_advance) (fun _ _ h => h) hstep ((portsOk_iff s).mp hs),
    keeps_of_step (P := fun s => arbiterOk s)
      (fun _ _ => keeps_of_pieces arbiterOk_update (keeps_raw fun _ _ _ _ _ h => h) fun _ => rfl)
      (fun _ => arbiterOk_advance) (fun _ _ h => h) hstep⟩

/-! ### Reset -/

/-- Settles O3: the table is empty, nothing runs, and the items stand at their defaults. -/
theorem everyInvariantHoldsAtReset : Obligations.EveryInvariantHoldsAtReset :=
  ⟨tableOk_reset State.reset, grantsBounded_of_no_grant (no_grant_of_reset rfl), limitsOk_default, rfl, rfl, rfl, rfl, rfl, rfl, rfl,
    rfl, rfl, rfl, rfl, rfl⟩

/-! ### Limits and the lock (10.5) -/

/-- The limit items and the limits lock. -/
def limitsAndLock (s : State) : Limits × Bool := (s.lim, s.locked)

theorem limitsAndLock_update {s t : State} (h : Update s t) : limitsAndLock t = limitsAndLock s := by
  obtain ⟨step, brk, pref⟩ := keeps_of_ports (P := fun t => limitsAndLock t = limitsAndLock s) (fun _ _ _ _ _ h => h) fun _ _ h => h
  cases h with
  | farSample f q counted range =>
    obtain ⟨c, b, h, r, heq, -⟩ := storeFarSample_form f q counted s range
    rw [heq]
    exact keeps_noted (P := fun t => limitsAndLock t = limitsAndLock s) (fun _ h => h) (fun _ _ h => h) c b rfl
  | port p w _ => exact step p w s rfl
  | breakEnd => exact brk s rfl
  | preference => exact pref s rfl
  | _ => rfl

theorem limitsAndLock_updates {s t : State} (h : Updates s t) : limitsAndLock t = limitsAndLock s :=
  h.keeps (P := fun t => limitsAndLock t = limitsAndLock s) (fun _ _ hu ih => (limitsAndLock_update hu).trans ih) rfl

/-- A change that leaves the items and does not clear the lock. -/
def keepsLimits (s t : State) : Prop := t.lim = s.lim ∧ (s.locked = true → t.locked = true)

/-- A change that does not clear the lock. -/
def keepsLock (s t : State) : Prop := s.locked = true → t.locked = true

theorem keepsLimits_of_updates {s t : State} (h : Updates s t) : keepsLimits s t := by
  have h := limitsAndLock_updates h
  simp only [limitsAndLock, Prod.mk.injEq] at h
  exact ⟨h.1, fun hl => h.2.trans hl⟩

theorem keepsLimits_trans {s t u : State} (h : keepsLimits s t) (g : keepsLimits t u) : keepsLimits s u :=
  ⟨g.1.trans h.1, fun hl => g.2 (h.2 hl)⟩

theorem keepsLimits_lockLimits (args : List Byte) (s : State) : keepsLimits s (runCommand lockLimitsCmd args s) := by
  cases args with
  | nil => exact ⟨rfl, fun _ => rfl⟩
  | cons b bs => exact ⟨rfl, id⟩

theorem locked_handOffLimit (a : LimitAddr) (old : Limits) (s : State) : (handOffLimit a old s).locked = s.locked := by
  have kept {t : State} (h : Updates s t) : t.locked = s.locked := congrArg Prod.snd (limitsAndLock_updates h)
  unfold handOffLimit
  split
  · exact kept (updates_reevaluateBoth s)
  · exact kept (updates_reevaluateBoth s)
  · exact kept (updates_reevaluateBoth s)
  · unfold rescale
    split <;> rfl
  · exact kept (.of (.preference s))
  all_goals rfl

theorem keepsLock_setLimit (args : List Byte) (s : State) : keepsLock s (runCommand setLimitCmd args s) := by
  have written : (setLimitCmd args s).st.locked = s.locked := by
    unfold setLimitCmd
    split
    · rfl
    · split
      · rfl
      · unfold applyWrite
        split
        · rfl
        · rw [locked_handOffLimit, requestPass_eq]
          rfl
  exact fun h => written.trans h

theorem keepsLimits_dieSample (t : Int) (s : State) : keepsLimits s (dieSample t s) := by
  unfold dieSample
  extract_lets q s1 t'
  split
  · obtain ⟨hlim, hlock⟩ := keepsLimits_of_updates (updates_reevaluateBoth { (latch .dieHot s1) with dieHot := true })
    exact ⟨hlim, hlock⟩
  · split
    · obtain ⟨hlim, hlock⟩ := keepsLimits_of_updates (updates_reevaluateBoth { s1 with dieHot := false })
      exact ⟨hlim, hlock⟩
    · exact ⟨rfl, id⟩

/-- A frame leaves the items and the lock unless it carries SET_LIMIT, which leaves the lock, or RESET (R157). -/
theorem takeFrame_limits (bs : List Byte) (s : State) :
    keepsLimits s (takeFrame bs s) ∨ (∃ args, checkFrame bs = .wellFormed 0x40 args ∧ keepsLock s (takeFrame bs s)) ∨
      checkFrame bs = .wellFormed 0x7F [] := by
  unfold takeFrame
  split
  · exact .inl (keepsLimits_of_updates (updates_erredFrame _ s))
  · next code args hframe =>
    rcases runCode_meaning code args s with ⟨rfl, h⟩ | ⟨rfl, h⟩ | h | ⟨cmd, hmem, h⟩
    · cases args with
      | nil => exact .inr (.inr hframe)
      | cons b bs =>
        rw [h]
        exact .inl (keepsLimits_of_updates ((updates_placeAnswer _ _ s).trans (updates_restartSilence _)))
    · rw [h]
      exact .inr (.inl ⟨args, hframe, keepsLock_setLimit args s⟩)
    · rw [h]
      exact .inl (keepsLimits_lockLimits args s)
    · rw [h]
      exact .inl (keepsLimits_of_updates (updates_runCommand hmem args s))

/-- Settles O13: every row but those named is a chain of updates that leave items and lock, or a well-formed frame's command. -/
theorem onlyResetClearsTheLock : Obligations.OnlyResetClearsTheLock := by
  intro s t c he resets sets
  have kept (h : keepsLimits s t) : (t.lim = s.lim ∨ sets ∨ resets) ∧ (s.locked = true → t.locked = true ∨ resets) :=
    ⟨.inl h.1, fun hl => .inl (h.2 hl)⟩
  have reset (h : resets) : (t.lim = s.lim ∨ sets ∨ resets) ∧ (s.locked = true → t.locked = true ∨ resets) :=
    ⟨.inr (.inr h), fun _ => .inr h⟩
  have set (h : sets) (hlock : keepsLock s t) : (t.lim = s.lim ∨ sets ∨ resets) ∧ (s.locked = true → t.locked = true ∨ resets) :=
    ⟨.inr (.inl h), fun hl => .inl (hlock hl)⟩
  by_cases hc : reachesAll c = false
  · exact kept (keepsLimits_of_updates (updates_of_exec hc he))
  · cases c with
    | powerOnReset => exact reset (.inr (.inr (.inl rfl)))
    | rstnLow => exact reset (.inr (.inl rfl))
    | reset args =>
      cases args with
      | nil => exact reset (.inl rfl)
      | cons b bs =>
        cases he
        rcases commandFrame_cases runReset (b :: bs) s with hu | ⟨u, hu, heq⟩
        · exact kept (keepsLimits_of_updates hu)
        · rw [heq] at kept ⊢
          exact kept (keepsLimits_of_updates (hu.trans ((updates_placeAnswer _ _ _).trans (updates_restartSilence _))))
    | setLimit args =>
      cases he
      rcases commandFrame_cases (runCommand setLimitCmd) args s with hu | ⟨u, hu, heq⟩
      · exact kept (keepsLimits_of_updates hu)
      · rw [heq] at set ⊢
        exact set (.inl ⟨args, rfl⟩) fun hl => keepsLock_setLimit args u ((keepsLimits_of_updates hu).2 hl)
    | lockLimits args =>
      cases he
      rcases commandFrame_cases (runCommand lockLimitsCmd) args s with hu | ⟨u, hu, heq⟩
      · exact kept (keepsLimits_of_updates hu)
      · rw [heq] at kept ⊢
        exact kept (keepsLimits_trans (keepsLimits_of_updates hu) (keepsLimits_lockLimits args u))
    | dieSample d =>
      cases he
      exact kept (keepsLimits_dieSample d s)
    | lselRise bits =>
      cases he
      rcases lselRiseWith_cases (takeFrame (wholeBytes bits)) s with hu | ⟨u, hu, heq⟩
      · exact kept (keepsLimits_of_updates hu)
      · have hu := keepsLimits_of_updates hu
        have heq : lselRise bits s = takeFrame (wholeBytes bits) u := heq
        rw [heq] at kept set ⊢
        rcases takeFrame_limits (wholeBytes bits) u with h | ⟨args, hframe, h⟩ | hframe
        · exact kept (keepsLimits_trans hu h)
        · exact set (.inr ⟨bits, rfl, args, hframe⟩) fun hl => h (hu.2 hl)
        · exact ⟨.inr (.inr (.inr (.inr (.inr ⟨bits, rfl, hframe⟩)))), fun _ => .inr (.inr (.inr (.inr ⟨bits, rfl, hframe⟩)))⟩
    | _ => exact absurd rfl hc

end Sys2Proof.Machine
end

section
/-! The step, the FOLD line, the commands of a net power, the system load monitor, the power-on reset, and frames (2.3, 3.5, 6.6, 10.2). -/

namespace Sys2Proof.Machine

/-- Settles O1: the definition of a step on a queue that is not empty. -/
theorem stepRunsTheFrontCommand : Obligations.StepRunsTheFrontCommand := by
  intro c rest s h
  rw [step, h]

/-! ### The FOLD line (R37) -/

theorem fold_high_iff (f : Fold) (high : Bool) : high = f.high ↔ (high = true ↔ f = .folded) := by
  cases f <;> cases high <;> simp [Fold.high]

/-- Settles O35: a change of level by the level the fold state shows, and the settled line by what it shows anew. -/
theorem foldStateFollowsASettledLine : Obligations.FoldStateFollowsASettledLine := by
  intro s
  refine ⟨fun high hne => ?_, ?_, fun hw => ?_, fun hw => ?_⟩
  · change Host.Outcome.next (foldLevelChange high s) = _
    simp only [foldLevelChange, if_neg hne, fold_high_iff]
    rfl
  · change Host.Outcome.next (foldLevelChange s.budget.foldHigh s) = _
    rw [foldLevelChange, if_pos rfl]
  · change Host.Outcome.next (foldSettleExpiry s) = _
    rw [foldSettleExpiry, if_pos hw, requestPassIf_eq]
    cases hh : s.budget.foldHigh <;> cases s.budget.fold <;> simp [foldOfLevel, withRequest, hh]
  · change Host.Outcome.next (foldSettleExpiry s) = _
    rw [foldSettleExpiry, if_neg hw]

/-! ### Commands of a net power (R58 to R60) -/

theorem commandA_pos {v : Nat} (hv : 0 < v) (p : Nat) : commandA p v = ((p * 1000 / v : Nat) : Int) := by
  rw [commandA, if_neg hv.ne']
  exact_mod_cast Int.ofNat_tdiv (p * 1000) v

theorem commandA_neg {v : Nat} (hv : 0 < v) (p : Nat) : commandA (-p) v = -((p * 1000 / v : Nat) : Int) := by
  rw [commandA, if_neg hv.ne', Int.neg_mul, Int.neg_tdiv]
  congr 1

/-- Settles O34: a power's sign decides how its loss counts, and its quotient rounds toward zero. -/
theorem commandsFollowNetPower : Obligations.CommandsFollowNetPower := by
  intro p v rh loss
  refine ⟨rfl, rfl, rfl, ?_, fun hv => ⟨commandA_pos hv p, commandA_neg hv p, fun hp => ?_⟩⟩
  · simp [commandB, flexLoss]
  · have hneg : (-(p : Int)) < 0 := by omega
    have hpos : ¬(p : Int) < 0 := by omega
    constructor
    · simp only [commandB, if_neg hv.ne', if_pos hneg, Int.natAbs_neg, Int.natAbs_natCast]
      rfl
    · simp only [commandB, if_neg hv.ne', if_neg hpos, Int.natAbs_natCast]
      rfl

/-! ### Power-on reset (R31) -/

/-- Settles O51: the state of every block is written out by its reset value. -/
theorem powerOnResetLeavesTheResetValues : Obligations.PowerOnResetLeavesTheResetValues := by
  intro s
  have free (k : Fin 24) : slotOf (powerOnReset s) k = Slot.free := by
    simp [slotOf, powerOnReset, State.reset, Table.reset]
  refine ⟨powerOnReset s, rfl, rfl, fun k => ⟨congrArg Slot.record (free k), congrArg Slot.gen (free k)⟩, ?_⟩
  refine ⟨rfl, rfl, rfl, rfl, rfl, rfl, rfl, rfl, rfl, rfl, rfl, fun x => ?_, rfl, rfl, rfl, rfl, rfl, fun p => ?_, rfl, rfl, rfl,
    rfl, ?_, rfl, rfl⟩
  · cases x <;> exact ⟨rfl, rfl, rfl, rfl, rfl⟩
  · cases p <;> exact ⟨rfl, rfl, rfl, rfl⟩
  · change ∀ e ∈ itemRows, e.value Limits.default = e.dflt
    decide

/-! ### The system load monitor (R115, R116) -/

/-- The reading of a load sample in its range. -/
def loadReading (reading : Int) : Nat := (min 100000 (max 0 reading)).toNat

/-- A load sample stored, its slot timed anew. -/
def loadStored (reading : Int) (s : State) : State :=
  { s with slots := { s.slots with load := 10 }, load := { s.load with pm := loadReading reading } }

theorem loadSample_eq (reading : Int) (s : State) :
    loadSample reading s =
      if s.load.on then loadOnTest (loadStored reading s) else loadOffTest (loadStored reading s) := by
  unfold loadSample loadStored loadReading
  rw [clampInt_eq_min_max 0 100000 reading (by omega)]
  rfl

/-- Overdraw turned on, with the latest sample `pm` (R115). -/
theorem turnOverdrawOn_eq (s : State) :
    turnOverdrawOn s = withRequest
      { s with
        load := ⟨true, min 65535 (s.load.pm - grantedSum s), 0, 0, s.load.pm⟩
        cond := { s.cond with
          latched := s.cond.latched ||| 0x4#26
          cnt := { s.cond.cnt with overdraws := oneMore s.cond.cnt.overdraws } } } :=
  requestPass_eq _

theorem turnOverdrawOff_eq (s : State) :
    turnOverdrawOff s = withRequest { s with load := ⟨false, 0, 0, 0, s.load.pm⟩ } :=
  requestPass_eq _

theorem grantedSum_loadStored (reading : Int) (s : State) : grantedSum (loadStored reading s) = grantedSum s := rfl

/-- Settles O57: a sample by the overdraw state, the side of L it lies on, and its run; the rows by the state. -/
theorem systemLoadTurnsOverdrawOnAndOff : Obligations.SystemLoadTurnsOverdrawOnAndOff := by
  intro s reading pm L u on off
  have hsample : exec (.systemLoadSample reading) s = .next (loadSample reading s) := rfl
  have hpm : (loadStored reading s).load.pm = pm := rfl
  have hL : grantedSum (loadStored reading s) = L := rfl
  have hlim : (loadStored reading s).lim = s.lim := rfl
  have honRun : (loadStored reading s).load.onRun = s.load.onRun := rfl
  have hoffRun : (loadStored reading s).load.offRun = s.load.offRun := rfl
  refine ⟨fun hoff => ?_, fun hon => ?_⟩
  · rw [hsample, loadSample_eq, hoff, if_neg Bool.false_ne_true, loadOffTest, hpm, hL, hlim, honRun]
    refine ⟨fun hover hrun => ?_, fun hover hrun => ?_, fun hunder => ?_, ?_, ?_⟩
    · rw [if_pos hover, if_pos ⟨Nat.succ_pos _, hrun⟩, turnOverdrawOn_eq]
      rfl
    · rw [if_pos hover, if_neg fun h => absurd h.2 (Nat.not_le.mpr hrun)]
      rfl
    · rw [if_neg (Nat.not_lt.mpr hunder), if_neg fun h => absurd h.1 (Nat.lt_irrefl 0)]
      rfl
    · change Host.Outcome.next (overdrawOnRun s) = _
      rw [overdrawOnRun, hoff, if_neg Bool.false_ne_true, turnOverdrawOn_eq]
    · change Host.Outcome.next (overdrawOffRun s) = _
      rw [overdrawOffRun, hoff, if_neg Bool.false_ne_true]
  · have hu : unaccounted (loadStored reading s) = min 65535 (pm - L) := rfl
    rw [hsample, loadSample_eq, hon, if_pos rfl, loadOnTest, hpm, hL, hu, hlim, hoffRun]
    refine ⟨fun hunder hrun => ?_, fun hunder hrun => ?_, fun hover => ?_, ?_, ?_⟩
    · rw [if_pos hunder, if_pos ⟨Nat.succ_pos _, hrun⟩, turnOverdrawOff_eq]
      rfl
    · rw [if_pos hunder, if_neg fun h => absurd h.2 (Nat.not_le.mpr hrun), Nat.sub_eq_zero_of_le hunder]
      rfl
    · rw [if_neg (Nat.not_le.mpr hover), if_neg fun h => absurd h.1 (Nat.lt_irrefl 0)]
      rfl
    · change Host.Outcome.next (overdrawOffRun s) = _
      rw [overdrawOffRun, hon, if_pos rfl, turnOverdrawOff_eq]
    · change Host.Outcome.next (overdrawOnRun s) = _
      rw [overdrawOnRun, hon, if_pos rfl]

/-! ### Frames (10.2) -/

/-- Settles O17: a fall, the frame timer's end and the rise after it, by the receiver's state. -/
theorem frameBeginsAtAFallAndTimesOut : Obligations.FrameBeginsAtAFallAndTimesOut := by
  intro s
  have hfall : exec .lselFall s = .next (lselFall s) := rfl
  have htimer : exec .frameTimerExpiry s = .next (frameTimeout s) := rfl
  refine ⟨fun hhigh hrstn hrx => ?_, fun hhigh hrstn => ?_, fun hrx ht => ?_, fun h => ?_, fun bits hrx hlow hrstn => ?_⟩
  · rw [hfall, lselFall, if_pos hhigh]
    simp only [hrstn, hrx, Bool.false_eq_true, if_false]
    rfl
  · rw [hfall, lselFall, if_pos hhigh]
    simp only [hrstn, if_true]
  · rw [htimer, frameTimeout, if_pos ⟨hrx, ht⟩]
    rfl
  · rw [htimer, frameTimeout, if_neg]
    rintro ⟨hrx, ht⟩
    exact h.elim (fun h => h hrx) fun h => h ht
  · change Host.Outcome.next (lselRise bits s) = _
    simp [lselRise, lselRiseWith, hrx, hlow, hrstn, endFrame]

theorem toNat_ofNat_length (args : List Byte) (h : args.length ≤ 32) : (BitVec.ofNat 8 args.length).toNat = args.length := by
  rw [BitVec.toNat_ofNat]
  exact Nat.mod_eq_of_lt (by omega)

/-- A frame followed by other bytes is read back: its length byte delimits the arguments and the check (R156). -/
theorem checkFrame_frameOf (code : Byte) (args more : List Byte) (h : args.length ≤ 32) :
    checkFrame (frameOf code args ++ more) = .wellFormed code args := by
  have hframe : frameOf code args ++ more = code :: BitVec.ofNat 8 args.length ::
      (args ++ (crc8 (code :: BitVec.ofNat 8 args.length :: args) :: more)) := by simp [frameOf]
  rw [hframe]
  simp only [checkFrame, toNat_ofNat_length args h]
  rw [if_neg (by omega), if_neg (by simp)]
  simp

/-- Settles O14: whole bytes come first, and the frame's own length says which of them it reads. -/
theorem frameReadsBackItsCommand : Obligations.FrameReadsBackItsCommand := by
  intro code args extra h
  rw [wholeBytes_bitsOfBytes]
  exact checkFrame_frameOf code args _ h

/-- A frame in progress is one the port takes. -/
theorem takesFrame_of_receiving {s : State} (hrstn : s.link.rstnLow = false) (hlow : s.link.lselHigh = false)
    (hrx : s.link.rx = .receiving) : takesFrame s := by
  simp [takesFrame, hrstn, hlow, hrx]

/-- The rise at the end of a command's frame runs its code (R157). -/
theorem exec_lselRise_frameOf {s : State} (code : Byte) (args : List Byte) (extra : List Bool) (hn : args.length ≤ 32)
    (hrstn : s.link.rstnLow = false) (hlow : s.link.lselHigh = false) (hrx : s.link.rx = .receiving) :
    exec (.lselRise (bitsOfBytes (frameOf code args) ++ extra)) s = .next (runCode code args (afterEdges s)) := by
  change Host.Outcome.next (lselRise _ s) = _
  rw [lselRise, lselRiseWith_receiving s _ hrstn hlow hrx, takeFrame, wholeBytes_bitsOfBytes, checkFrame_frameOf code args _ hn]

/-- The frame of a command's row runs what is done with its arguments. -/
theorem commandFrame_taken {run : List Byte → State → State} {args : List Byte} {s : State} (h : takesFrame s)
    (hn : args.length ≤ 32) : commandFrame run args s = run args (afterEdges s) := by
  rw [commandFrame, lselRiseWith_lselFall s h, if_pos hn]

/-- The meaning of each command's code is its row's. -/
theorem runCode_commandCodes {s : State} {args : List Byte} (h : takesFrame s) (hn : args.length ≤ 32) :
    ∀ c ∈ commandCodes, Host.Outcome.next (runCode c.1 args (afterEdges s)) = exec (c.2 args) s := by
  have row {run : List Byte → State → State} : run args (afterEdges s) = commandFrame run args s :=
    (commandFrame_taken h hn).symm
  simp only [commandCodes, List.forall_mem_cons, List.not_mem_nil, false_imp_iff, implies_true, and_true]
  exact ⟨congrArg _ row, congrArg _ row, congrArg _ row, congrArg _ row, congrArg _ row, congrArg _ row, congrArg _ row,
    congrArg _ row, congrArg _ row, congrArg _ row, congrArg _ row, congrArg _ row, congrArg _ row, congrArg _ row, congrArg _ row,
    congrArg _ row, congrArg _ row, congrArg _ row, congrArg _ row, congrArg _ row, congrArg _ row, congrArg _ row⟩

/-- A code of no command is UNKNOWN_COMMAND (R157). -/
theorem runCode_unknown {code : Byte} (h : ∀ c ∈ commandCodes, c.1 ≠ code) (args : List Byte) (s : State) :
    runCode code args s = runCommand unknownCmd args s := by
  have known (n : Nat) (hn : n < 256) (hc : ∃ c ∈ commandCodes, c.1.toNat = n) : code.toNat ≠ n := by
    obtain ⟨c, hmem, rfl⟩ := hc
    exact fun he => h c hmem (BitVec.eq_of_toNat_eq he.symm)
  unfold runCode
  split
  case h_23 => rfl
  all_goals
    next hcode => exact absurd hcode (known _ (by decide) (by decide))

/-- Settles O15: the rise runs the code that its frame carries, as the row's own frame does. -/
theorem lselRiseCarriesOutTheCommand : Obligations.LselRiseCarriesOutTheCommand := by
  intro s args extra hn hrstn hlow hrx
  refine ⟨fun c hc => ?_, fun code hcode => ?_⟩
  · rw [exec_lselRise_frameOf c.1 args extra hn hrstn hlow hrx]
    exact runCode_commandCodes (takesFrame_of_receiving hrstn hlow hrx) hn c hc
  · rw [answersOnly, exec_lselRise_frameOf code args extra hn hrstn hlow hrx, runCode_unknown hcode, runCommand_eq]
    rfl

/-- A frame whose checks fail runs no command (R156). -/
theorem exec_lselRise_erred {s : State} {bs : List Byte} {tail : List Bool} {out : Outc} (ht : tail.length < 8)
    (hrstn : s.link.rstnLow = false) (hlow : s.link.lselHigh = false) (hrx : s.link.rx = .receiving)
    (hcheck : checkFrame bs = .erred out) :
    exec (.lselRise (bitsOfBytes bs ++ tail)) s = .next (erredFrame out (afterEdges s)) := by
  change Host.Outcome.next (lselRise _ s) = _
  rw [lselRise, lselRiseWith_receiving s _ hrstn hlow hrx, takeFrame, wholeBytes_bitsOfBytes, wholeBytes_short tail ht,
    List.append_nil, hcheck]

/-- Settles O16: fewer than two bytes, a length above 32, bytes missing, or a wrong check, in this order. -/
theorem erredFrameRunsNoCommand : Obligations.ErredFrameRunsNoCommand := by
  intro s bs tail ht hrstn hlow hrx erred up
  have rise {out : Outc} (h : checkFrame bs = .erred out) := exec_lselRise_erred ht hrstn hlow hrx h
  refine ⟨fun hshort => ?_, ?_⟩
  · have hcheck : checkFrame bs = .erred .frameShort := by
      match bs, hshort with
      | [], _ => rfl
      | [_], _ => rfl
    exact rise hcheck
  · rintro code n rest rfl
    refine ⟨fun hlong => ?_, fun hn hshort => ?_, fun hn hlen hcrc => ?_⟩
    · exact rise (by rw [checkFrame, if_pos hlong])
    · have hmissing : rest.length < n.toNat + 1 := by
        simp only [List.length_cons] at hshort
        omega
      exact rise (by rw [checkFrame, if_neg (Nat.not_lt.mpr hn), if_pos hmissing])
    · have hwhole : ¬rest.length < n.toNat + 1 := by
        simp only [List.length_cons] at hlen
        omega
      have htake : (code :: n :: rest).take (n.toNat + 2) = code :: n :: rest.take n.toNat := rfl
      rw [htake] at hcrc
      exact rise (by rw [checkFrame, if_neg (Nat.not_lt.mpr hn), if_neg hwhole, if_neg hcrc])

end Sys2Proof.Machine
end

section
/-! Samples stored by a cell monitor, and the hinge sense line (4.2 to 4.6, 7). -/

namespace Sys2Proof.Machine

/-! ### A sample stored (4.2 to 4.6) -/

/-- The note of a zone: a pass where it is new, ZONE_CHANGE where it takes another's place (R84). -/
theorem noteZone_eq (x : Cell) (before : Option Zone) (after : Zone) (s : State) :
    noteZone x before after s =
      { s with
        budget := if before = some after then s.budget else (withRequest s).budget
        cond := { s.cond with
          latched := if before = none ∨ before = some after then s.cond.latched
            else s.cond.latched ||| cellFlag x 0x40000#26 } } := by
  cases before with
  | none => simp [noteZone, requestPass_eq, withRequest]
  | some z =>
    by_cases hz : z = after
    · simp [noteZone, hz]
    · cases x <;> simp [noteZone, hz, requestPass_eq, withRequest] <;> exact ⟨rfl, rfl⟩

/-- The zone of a sample, where the edges keep their distances (R81 to R83). -/
theorem sampleZone_eq {l : Limits} (h : limitsOk l) (t : Int) (farOt : Bool) (z : Option Zone) :
    sampleZone l t farOt z = if farOt then .hot else nextZone l.zoneEdges (z.getD .normal) t := by
  have hedges := ((limitsOk_iff l).mp h).edges
  cases z with
  | none => rfl
  | some z => simp [sampleZone, zoneAfter_eq_nextZone l z t hedges]

/-- Rising points lie above the first. -/
theorem lt_of_rising {a : Nat} {l : List Nat} (h : rising (a :: l)) : ∀ x ∈ l, a < x := by
  induction l generalizing a with
  | nil => simp
  | cons b l ih =>
    rw [rising, Bool.and_eq_true, decide_eq_true_eq] at h
    obtain ⟨hab, hb⟩ := h
    intro x hx
    rcases List.mem_cons.mp hx with rfl | hx
    · exact hab
    · exact hab.trans (ih hb x hx)

theorem restSoc_between {v j : Nat} {l : List Nat} (h : rising l) (k : Nat) (hk : k + 1 < l.length) (hlo : l[k] ≤ v)
    (hhi : v < l[k + 1]) : restSoc v j l = 100 * (j + k) + 100 * (v - l[k]) / (l[k + 1] - l[k]) := by
  induction l generalizing j k with
  | nil => simp at hk
  | cons a l ih =>
    cases l with
    | nil => simp at hk
    | cons b l =>
      have hlt := lt_of_rising h
      rw [rising, Bool.and_eq_true, decide_eq_true_eq] at h
      obtain ⟨hab, hb⟩ := h
      cases k with
      | zero =>
        simp only [List.getElem_cons_zero, List.getElem_cons_succ, zero_add] at hlo hhi ⊢
        rw [restSoc, if_neg (Nat.not_lt.mpr hlo), if_pos hhi, Nat.add_zero]
      | succ k =>
        have hk : k + 1 < (b :: l).length := by simpa using hk
        have hlo : (b :: l)[k] ≤ v := hlo
        have hhi : v < (b :: l)[k + 1] := hhi
        change restSoc v j (a :: b :: l) = 100 * (j + (k + 1)) + 100 * (v - (b :: l)[k]) / ((b :: l)[k + 1] - (b :: l)[k])
        have hbv : b ≤ v := by
          cases k with
          | zero => exact hlo
          | succ k => exact (lt_of_rising hb _ (List.getElem_mem (by simpa using hk.le))).le.trans hlo
        rw [restSoc, if_neg (by omega), if_neg (by omega), ih hb k hk hlo hhi, Nat.add_right_comm j 1 k, Nat.add_assoc j k 1]

theorem restSoc_below {v j : Nat} {l : List Nat} (hl : 2 ≤ l.length) (hv : v < l[0]) : restSoc v j l = 0 := by
  match l, hl with
  | a :: b :: l, _ => exact if_pos hv

theorem restSoc_above {v j : Nat} {l : List Nat} (h : rising l) (hne : l ≠ []) (hv : l.getLast hne ≤ v) : restSoc v j l = 1000 := by
  induction l generalizing j with
  | nil => exact absurd rfl hne
  | cons a l ih =>
    cases l with
    | nil => rfl
    | cons b l =>
      have hlt := lt_of_rising h
      rw [rising, Bool.and_eq_true] at h
      have hb : b ≤ v := by
        cases l with
        | nil => simpa using hv
        | cons c l => exact (lt_of_rising h.2 _ (List.getLast_mem (by simp))).le.trans (by simpa using hv)
      have hab := hlt b (by simp)
      rw [restSoc, if_neg (by omega), if_neg (by omega)]
      exact ih h.2 (by simp) (by simpa using hv)

/-- A stored sample with its note. -/
theorem storeSample_eq_noted {x : Cell} {s : State} (hl : limitsOk s.lim) (v : Nat) (i t : Int) (farOt : Bool) (counted : Int)
    (zone : Zone) (hz : zone = if farOt then .hot else nextZone s.lim.zoneEdges (((readingOf s x).map fun r => r.zone).getD .normal) t) :
    storeSample x v i t farOt counted s =
      { putReading x ⟨v, i, t, farOt, zone, storedCount x v counted s⟩ s with
        budget := if (readingOf s x).map (fun r => r.zone) = some zone then s.budget else (withRequest s).budget
        cond := { s.cond with
          latched := if (readingOf s x).map (fun r => r.zone) = none ∨ (readingOf s x).map (fun r => r.zone) = some zone
            then s.cond.latched else s.cond.latched ||| cellFlag x 0x40000#26 } } := by
  rw [storeSample_eq, sampleZone_eq hl, ← hz, noteZone_eq]
  rfl

/-- Settles O53: the stored record by R71, and the count by the record before it or by the rest-voltage table. -/
theorem cellASampleIsStoredAndHandedOn : Obligations.CellASampleIsStoredAndHandedOn := by
  intro s v i t order hl v' i' t' before zone u goes
  have hv : (clampInt 0 5000 v).toNat = v' := by rw [clampInt_eq_min_max 0 5000 v (by omega)]
  have hi : clampInt (-8000) 8000 i = i' := clampInt_eq_min_max _ _ i (by omega)
  have ht : clampInt (-40) 125 t = t' := clampInt_eq_min_max _ _ t (by omega)
  have stored : goes (storedCount .A v' i' s) := by
    have hstore := storeSample_eq_noted (x := .A) (s := { s with slots := { s.slots with cellA := 10 } }) hl v' i' t' false i' zone rfl
    have row : exec (.cellASample v i t order) s = .next (cellASample v i t order s) := rfl
    change exec (.cellASample v i t order) s = _
    rw [row, cellASample, hv, hi, ht]
    change Host.Outcome.next (handOn .A true order
      (storeSample .A v' i' t' false i' { s with slots := { s.slots with cellA := 10 } })) = _
    rw [hstore]
    cases order <;> rfl
  have first (hr : readingOf s .A = none) : storedCount .A v' i' s = restSoc v' 0 s.lim.rest.toList * s.lim.cap.a * 3600 := by
    simp only [storedCount, hr, firstCount]
    rfl
  have hrest := ((limitsOk_iff _).mp hl).rest
  refine ⟨fun r hr => ?_, fun hr => ⟨fun hlow => ?_, fun j hlo hhi => ?_, fun hhigh => ?_⟩⟩
  · have count : storedCount .A v' i' s = (min (s.lim.cap.a * 3600000 : Int) (max 0 (r.count + i' * 10))).toNat := by
      simp only [storedCount, hr, countAfter_eq, fullCount]
      push_cast
      rfl
    exact count ▸ stored
  · have count : storedCount .A v' i' s = 0 := by
      rw [first hr]
      have : restSoc v' 0 s.lim.rest.toList = 0 := restSoc_below (by simp) (by simpa using hlow)
      rw [this, Nat.zero_mul, Nat.zero_mul]
    exact count ▸ stored
  · have count := restSoc_between (v := v') (j := 0) hrest j.val (by simp; omega) (by simpa using hlo) (by simpa using hhi)
    rw [Vector.getElem_toList, Vector.getElem_toList, Nat.zero_add] at count
    exact count ▸ first hr ▸ stored
  · have hne : s.lim.rest.toList ≠ [] := by simp
    have count := restSoc_above (v := v') (j := 0) hrest hne (by simpa [List.getLast_eq_getElem] using hhigh)
    exact count ▸ first hr ▸ stored

end Sys2Proof.Machine
end

section
/-! The hinge sense line: slots, POLL, failed exchanges, the ladder's rows, and an accepted SAMPLE (7). -/

namespace Sys2Proof.Machine

/-! ### The ladder's rows (R121, R123 to R125) -/

theorem min_zero_eq (c : Int) : min 0 c = if 0 < c then 0 else c := by split <;> omega

/-- Entry to STALE (R123). -/
theorem enterStale_eq (s : State) :
    enterStale s = withRequest (latchedWith 0x400000#26
      { s with
        hinge := { s.hinge with dataState := .stale, failRun := 3, goodRun := 0, degTimer := some 500 }
        budget := { s.budget with cmd := ⟨s.budget.cmd.a, min 0 s.budget.cmd.b⟩ } }) := by
  rw [enterStale, requestPass_eq, zeroChargeB, min_zero_eq]
  change withRequest (latch .farStale (if 0 < s.budget.cmd.b then _ else _)) = _
  split <;> rfl

/-- The return to LIVE (R125). -/
theorem recover_eq (s : State) :
    recover s = withRequest (latchedWith 0x1000000#26
      { s with hinge := { s.hinge with dataState := .live, failRun := 0, goodRun := 0, degTimer := none } }) :=
  requestPass_eq _

theorem byCommand_iff (d : DataState) : d.byCommand = true ↔ d = .stale ∨ d = .degraded := by
  cases d <;> simp [DataState.byCommand]

/-- Settles O60: each row by the exchange, the data state or the timer it waits for. -/
theorem hingeLineAndRunsAct : Obligations.HingeLineAndRunsAct := by
  intro s h u
  have slot (low : Bool) : exec (.hingeSlot low) s = .next (hingeSlot low s) := rfl
  have complete : exec .pollComplete s = .next (pollComplete s) := rfl
  have failure : exec .failureRun s = .next (failureRun s) := rfl
  have good (order : SlotOrder) : exec (.goodRun order) s = .next (goodRun order s) := rfl
  refine ⟨fun he => ?_, fun he low => ?_, fun sent he => ?_, fun he => ?_, ?_, ?_, fun hd => ?_, fun hd => ?_, fun order =>
    ⟨fun hs hg => ?_, fun hd => ?_⟩⟩
  · rw [slot, hingeSlot, if_neg (not_not.mpr he)]
    rfl
  · rw [slot, hingeSlot, if_pos he]
    rfl
  · rw [complete, pollComplete, show s.hinge.exch = .polling sent from he]
    rfl
  · rw [complete, pollComplete]
    split
    · next sent hp => exact absurd hp (he sent)
    · rfl
    · rfl
  · rfl
  · change Host.Outcome.next (degradedExpiry s) = _
    rw [degradedExpiry, requestPass_eq]
    rfl
  · rw [failure, failureRun, if_neg hd]
  · rw [failure, failureRun, if_pos hd, enterStale_eq]
  · rw [good, goodRun, if_neg fun hb => ((byCommand_iff _).mp hb).elim hs hg]
  · rw [good, goodRun, if_pos ((byCommand_iff _).mpr hd), recover_eq] <;> rfl

/-! ### Failed exchanges (R121 to R126) -/

/-- The estimated flag after a slot (R75). -/
theorem noteEstimated_eq (failed : Bool) (s : State) :
    noteEstimated failed s = { s with mon := { s.mon with
      b := ⟨s.mon.b.rd, if s.hinge.dataState = .stale ∨ s.hinge.dataState = .degraded then true
        else if s.hinge.dataState = .live then false else s.mon.b.estimated, failed⟩ } } := by
  simp only [noteEstimated, byCommand_iff]
  rfl

/-- A slot handed on with held values (R72, R75), outside LIVE. -/
theorem cellBHeld_eq {s : State} (hd : s.hinge.dataState ≠ .live) :
    cellBHeld s = match readingOf s .B with
      | none => s
      | some r =>
        chargeSlot .B false { s with mon := { s.mon with
          b := ⟨some { r with count := (min (s.lim.cap.b * 3600000 : Int) (max 0 (r.count +
              (if s.hinge.dataState = .stale ∨ s.hinge.dataState = .degraded then s.budget.cmd.b else r.i) * 10))).toNat },
            if s.hinge.dataState = .stale ∨ s.hinge.dataState = .degraded then true else s.mon.b.estimated, true⟩ } } := by
  cases hr : readingOf s .B with
  | none => simp only [cellBHeld, hr]
  | some r =>
    have full : (fullCount s.lim .B : Int) = s.lim.cap.b * 3600000 := by
      change ((s.lim.cap.b * 3600000 : Nat) : Int) = _
      push_cast
      rfl
    have handed (u : State) : handOn .B false .chargeFirst u = chargeSlot .B false u := by
      rw [handOn, branchSlot]
      split <;> rfl
    simp only [cellBHeld, hr, handed, countAfter_eq, full, byCommand_iff]
    have estimated (u : State) (hu : u.hinge = s.hinge) : noteEstimated true u = { u with mon := { u.mon with
        b := ⟨u.mon.b.rd, if s.hinge.dataState = .stale ∨ s.hinge.dataState = .degraded then true else u.mon.b.estimated, true⟩ } } := by
      rw [noteEstimated_eq, hu]
      simp only [if_neg hd]
    rw [estimated (putReading _ _ _) rfl]
    rfl

/-- The data state a failed exchange leaves (R122, R123). -/
def dataStateFailed (h : Hinge) : DataState :=
  match h.dataState with
  | .live => .suspect
  | .suspect => if 2 ≤ h.failRun then .stale else .suspect
  | .awaiting => .awaiting
  | .stale => .stale
  | .degraded => .degraded

/-- The hinge state a failed exchange leaves, the exchange itself aside (R122, R123). -/
def hingeFailed (h : Hinge) : Hinge :=
  { h with
    dataState := dataStateFailed h, goodRun := 0
    failRun := if h.dataState = .live then 1 else min 3 (h.failRun + 1)
    degTimer := if h.dataState = .suspect ∧ 2 ≤ h.failRun then some 500 else h.degTimer }

/-- A failed exchange's move of the ladder (R122, R123). -/
theorem onFailed_eq (s : State) :
    onFailed s =
      { s with
        hinge := hingeFailed s.hinge
        budget :=
          { (if dataStateFailed s.hinge = s.hinge.dataState then s.budget else (withRequest s).budget) with
            cmd := ⟨s.budget.cmd.a,
              if (s.hinge.dataState = .suspect ∧ 2 ≤ s.hinge.failRun) ∧ 0 < s.budget.cmd.b then 0 else s.budget.cmd.b⟩ }
        cond := { s.cond with
          latched := if s.hinge.dataState = .suspect ∧ 2 ≤ s.hinge.failRun then s.cond.latched ||| 0x400000#26
            else s.cond.latched } } := by
  cases hd : s.hinge.dataState with
  | awaiting | stale | degraded =>
    simp [onFailed, hingeFailed, dataStateFailed, hd, failRunUp, putHinge]
  | live => 
    simp [onFailed, hingeFailed, dataStateFailed, hd, setDataState, requestPassIf_eq, putHinge, withRequest]
  | suspect =>
    have ends : min 3 (s.hinge.failRun + 1) = 3 ↔ 2 ≤ s.hinge.failRun := by omega
    by_cases hn : 2 ≤ s.hinge.failRun
    · simp only [onFailed, hd, failRunUp, if_pos (ends.mpr hn), enterStale_eq, min_zero_eq, hingeFailed, dataStateFailed, if_pos hn]
      simp [hn, withRequest, latchedWith]
      rfl
    · simp [onFailed, hd, failRunUp, hingeFailed, dataStateFailed, hn, putHinge]

theorem dataStateFailed_ne_live (h : Hinge) : dataStateFailed h ≠ .live := by
  unfold dataStateFailed
  split <;> try simp
  split <;> simp

/-- A failed exchange: its ladder's move, its count, the break, and the slot with held values. -/
theorem failExchange_eq (f : Failure) (s : State) :
    failExchange f s = cellBHeld
      { s with
        hinge := { hingeFailed s.hinge with exch := .ended, brk := some 100 }
        budget := (onFailed s).budget
        cond := { s.cond with
          latched := if s.hinge.dataState = .suspect ∧ 2 ≤ s.hinge.failRun then s.cond.latched ||| 0x400000#26
            else s.cond.latched
          cnt := s.cond.cnt.bump f.counter } } := by
  rw [failExchange, onFailed_eq]
  rfl


/-- Two's complement of a word read as a figure (R176). -/
theorem signedOf_toNat {w : Nat} (b : BitVec w) (hw : 0 < w) : signedOf w b.toNat = b.toInt := by
  have half : 2 * 2 ^ (w - 1) = 2 ^ w := by
    obtain ⟨k, rfl⟩ := Nat.exists_eq_add_of_lt hw
    simp [Nat.pow_succ, Nat.mul_comm]
  rw [signedOf, BitVec.toInt_eq_toNat_cond]
  by_cases hb : b.toNat < 2 ^ (w - 1)
  · rw [if_pos hb, if_pos (by omega)]
  · rw [if_neg hb, if_neg (by omega)]
    push_cast
    rfl

theorem toNat_append_bytes (hi lo : Byte) : (hi ++ lo).toNat = word2 hi lo := by
  rw [BitVec.toNat_append, Nat.shiftLeft_eq, Nat.mul_comm, word2, ← Nat.two_pow_add_eq_or_of_lt lo.isLt]
  omega

/-- The checks of a SAMPLE in the terms of R120. -/
theorem sampleOk_iff (h : Hinge) (m : SampleMsg) : sampleOk h m = true ↔
    crc8 [m.timing, m.seq, m.vHi, m.vLo, m.iHi, m.iLo, m.temp, m.flags] = m.check ∧ m.timing = 0x55 ∧ h.lastSeq ≠ some m.seq ∧
      2000 ≤ word2 m.vHi m.vLo ∧ word2 m.vHi m.vLo ≤ 4700 ∧ -40 ≤ m.temp.toInt ∧ m.temp.toInt ≤ 100 := by
  have ht := signedOf_toNat m.temp (by decide)
  simp only [sampleOk, farSampleOf, unsignedOf_two, ht, checkedBytes, seqOk, Bool.and_eq_true, beq_iff_eq, bne_iff_ne, decide_eq_true_eq, and_assoc]
  rfl

/-- Settles O58: the ladder's move is one lemma, and each row fails the exchange in the states that have one. -/
theorem failedExchangeMovesTheLadder : Obligations.FailedExchangeMovesTheLadder := by
  intro s h stale d cmdB failed collision badReply noReply
  have failure (f : Failure) (sl : Slots) :
      failExchange f { s with slots := sl } = failed { s with slots := sl } (s.cond.cnt.bump f.counter) := by
    rw [failExchange_eq, cellBHeld_eq (dataStateFailed_ne_live _), onFailed_eq]
    change (match readingOf s .B with | none => _ | some r => _) = (match readingOf s .B with | none => _ | some r => _)
    cases readingOf s .B <;> rfl
  have failedNow (f : Failure) : failExchange f s = failed s (s.cond.cnt.bump f.counter) := failure f s.slots
  have poll : exec .pollCollision s = .next (pollCollision s) := rfl
  have brk : exec .farBreak s = .next (farBreak s) := rfl
  have expiry (begun : Bool) : exec (.replyWindowExpiry begun) s = .next (replyWindowExpiry begun s) := rfl
  have rise (c : FramingCause) : exec (.badReplyFraming c) s = .next (replyRise c s) := rfl
  have read (line : List Bool) (o : SlotOrder) : exec (.sample line o) s = .next (sampleRead line o s) := rfl
  refine ⟨fun he => ?_, fun sent he => ?_, fun left seen he => ⟨?_, fun begun => ?_, fun ns hlo hhi => ?_, fun ns hns => ?_, fun ns => ?_,
    fun m o bad => ?_, fun line o hline => ?_⟩, fun he => ?_, fun he => ?_⟩
  · change Host.Outcome.next (hingeSlot true s) = _
    rw [hingeSlot, if_neg (not_not.mpr he), if_pos rfl]
    exact congrArg _ (failure .collision _)
  · have he : s.hinge.exch = .polling sent := he
    rw [poll, brk, pollCollision, farBreak, he, failedNow]
    exact ⟨rfl, rfl⟩
  · have he : s.hinge.exch = .window left seen := he
    rw [brk, farBreak, he, failedNow]
    rfl
  · have he : s.hinge.exch = .window left seen := he
    rw [expiry, replyWindowExpiry, he]
    dsimp only
    rw [failedNow, apply_ite Failure.counter]
    cases (begun || seen) <;> rfl
  · have he : s.hinge.exch = .window left seen := he
    have hr : rateAccepted ns = true := by simp [rateAccepted, hlo, hhi]
    rw [rise, replyRise, he]
    dsimp only
    rw [if_pos hr]
    rfl
  · have he : s.hinge.exch = .window left seen := he
    have hr : ¬ rateAccepted ns = true := by simp [rateAccepted]; omega
    rw [rise, replyRise, he]
    dsimp only
    rw [if_neg hr, failedNow]
    rfl
  · have he : s.hinge.exch = .window left seen := he
    rw [rise, replyRise, he]
    dsimp only
    rw [failedNow]
    split <;> rfl
  · have he : s.hinge.exch = .window left seen := he
    have hm : ¬ sampleOk s.hinge m = true := by
      rw [sampleOk_iff]
      rintro ⟨h1, h2, h3, h4, h5, h6, h7⟩
      rcases bad with bad | bad | bad | bad | bad | bad | bad
      · exact bad h1
      · exact bad h2
      · exact h3 bad
      all_goals omega
    rw [read, sampleRead, he, sampleOfLine_sampleLine]
    dsimp only
    rw [judgeSample, if_neg hm, failedNow]
    rfl
  · have he : s.hinge.exch = .window left seen := he
    rw [read, sampleRead, he, sampleOfLine_eq_none _ hline]
  · have he : s.hinge.exch = .ended := he
    simp only [List.forall_mem_cons, List.not_mem_nil, false_implies, implies_true, and_true]
    rw [poll, brk, pollCollision, farBreak, he]
    exact ⟨rfl, rfl⟩
  · intro begun f line o
    have none (left : Nat) (seen : Bool) : s.hinge.exch ≠ .window left seen := he left seen
    rw [expiry, rise, read, replyWindowExpiry, replyRise, sampleRead]
    cases hx : s.hinge.exch with
    | window left seen => exact absurd hx (none left seen)
    | polling sent => exact ⟨rfl, rfl, rfl⟩
    | ended => exact ⟨rfl, rfl, rfl⟩

/-! ### An accepted SAMPLE (R120, R122, R125) -/

/-- The far sample of a SAMPLE (R176). -/
theorem farSampleOf_eq (m : SampleMsg) :
    farSampleOf m = ⟨word2 m.vHi m.vLo, (m.iHi ++ m.iLo).toInt, m.temp.toInt, m.flags.getLsbD 0⟩ := by
  have hi : signedOf 16 (unsignedOf [m.iHi, m.iLo]) = (m.iHi ++ m.iLo).toInt := by
    rw [unsignedOf_two, ← toNat_append_bytes, signedOf_toNat _ (by decide)]
  have ht := signedOf_toNat m.temp (by decide)
  rw [farSampleOf, unsignedOf_two, hi, ht]

/-- The hinge state a GOOD exchange leaves, the exchange and its sample aside (R122, R125). -/
def hingeGood (h : Hinge) : Hinge :=
  let mending := h.dataState = .stale ∨ h.dataState = .degraded
  let back := mending ∧ 4 ≤ h.goodRun
  { h with
    dataState := if mending ∧ h.goodRun < 4 then h.dataState else .live
    failRun := 0
    goodRun := if back then 0 else if mending then h.goodRun + 1 else h.goodRun
    degTimer := if back then none else h.degTimer }

/-- What a GOOD exchange latches (R125). -/
def flagGood (h : Hinge) : BitVec 26 :=
  if (h.dataState = .stale ∨ h.dataState = .degraded) ∧ 4 ≤ h.goodRun then 0x1000000#26 else 0

/-- A GOOD exchange's move of the ladder (R122, R125). -/
theorem onGood_eq (s : State) :
    onGood s = noted (!decide ((hingeGood s.hinge).dataState = s.hinge.dataState)) (flagGood s.hinge)
      (putHinge (hingeGood s.hinge) s) := by
  have recovering (hb : s.hinge.dataState = .stale ∨ s.hinge.dataState = .degraded) :
      onGood s = onGoodRecovering s := by
    rcases hb with hb | hb <;> simp only [onGood, hb]
  have settling (hb : ¬ (s.hinge.dataState = .stale ∨ s.hinge.dataState = .degraded)) :
      onGood s = setDataState .live (putHinge { s.hinge with failRun := 0 } s) := by
    cases hd : s.hinge.dataState <;> simp_all [onGood]
  by_cases hb : s.hinge.dataState = .stale ∨ s.hinge.dataState = .degraded
  · have ne : DataState.live ≠ s.hinge.dataState := by rcases hb with hb | hb <;> simp [hb]
    rw [recovering hb, onGoodRecovering]
    dsimp only
    by_cases hn : 4 ≤ s.hinge.goodRun
    · have good : hingeGood s.hinge = { s.hinge with dataState := .live, failRun := 0, goodRun := 0, degTimer := none } := by
        simp [hingeGood, hb, hn, Nat.not_lt.mpr hn]
      rw [if_pos (by omega), recover, requestPass_latch_eq_noted, good, flagGood, if_pos ⟨hb, hn⟩]
      simp [ne]
      rfl
    · have good : hingeGood s.hinge = { s.hinge with failRun := 0, goodRun := s.hinge.goodRun + 1 } := by
        simp [hingeGood, hb, hn, Nat.lt_of_not_le hn]
      rw [if_neg (by omega), good, flagGood, if_neg fun h => hn h.2]
      simp only [decide_true, Bool.not_true]
      exact (noted_false_zero _).symm
  · have good : hingeGood s.hinge = { s.hinge with dataState := .live, failRun := 0 } := by
      simp [hingeGood, hb]
    rw [settling hb, setDataState, requestPassIf_eq_noted, good, flagGood, if_neg fun h => hb h.1]
    rfl

/-- A state that notes: what `noted` writes. -/
theorem noted_eq (c : Bool) (bits : BitVec 26) (s : State) :
    noted c bits s =
      { s with
        budget := if c then (withRequest s).budget else s.budget
        cond := { s.cond with latched := s.cond.latched ||| bits } } := by
  cases c <;> rfl

/-- Settles O59: the ladder's move, the stored record and the estimated flag are one lemma each. -/
theorem goodSampleIsAcceptedAndStored : Obligations.GoodSampleIsAcceptedAndStored := by
  intro s m order left seen hl he hcheck htiming hseq hv1 hv2 ht1 ht2 h i i' f mending back d before zone n u
  have ok : sampleOk s.hinge m = true := (sampleOk_iff _ _).mpr ⟨hcheck, htiming, hseq, hv1, hv2, ht1, ht2⟩
  have hi : clampInt (-8000) 8000 i = i' := clampInt_eq_min_max _ _ i (by omega)
  let g := putHinge { s.hinge with exch := .ended, latest := some f, lastSeq := some m.seq } s
  have good : onGood g = noted (!decide (d = s.hinge.dataState)) (flagGood s.hinge)
      (putHinge { hingeGood s.hinge with exch := .ended, latest := some f, lastSeq := some m.seq } s) := onGood_eq g
  have settled : d = .live ∨ d = .stale ∨ d = .degraded := by
    by_cases hm : mending ∧ s.hinge.goodRun < 4
    · have same : d = s.hinge.dataState := if_pos hm
      exact .inr (same ▸ hm.1)
    · exact .inl (if_neg hm)
  have lim : (onGood g).lim = s.lim := by rw [good, noted_eq]; rfl
  have read : readingOf (onGood g) .B = readingOf s .B := by rw [good, noted_eq]; rfl
  have state : (onGood g).hinge.dataState = d := by rw [good, noted_eq]; rfl
  have cmd : (onGood g).budget.cmd = s.budget.cmd := by
    rw [good]
    cases (!decide (d = s.hinge.dataState)) <;> rfl
  have accepted : cellBGood f order (onGood g) = handOn .B true order
      (noteEstimated false (storeSample .B f.v i' f.t f.farOt (if d = .live then i' else s.budget.cmd.b) (onGood g))) := by
    have current : (if d.byCommand then s.budget.cmd.b else i') = if d = .live then i' else s.budget.cmd.b := by
      rcases settled with hd | hd | hd <;> simp [hd, DataState.byCommand]
    rw [cellBGood, state, cmd, ← current, ← hi]
    rfl
  have counted : storedCount .B f.v (if d = .live then i' else s.budget.cmd.b) (onGood g) = n := by
    have full : (fullCount s.lim .B : Int) = s.lim.cap.b * 3600000 := by
      rw [fullCount]
      push_cast
      rfl
    rw [storedCount, read, lim]
    change _ = match readingOf s .B with | none => _ | some r => _
    cases readingOf s .B with
    | none => rfl
    | some r =>
      dsimp only
      rw [countAfter_eq, full]
  have estimated (c : Bool) : (if d = .stale ∨ d = .degraded then true else if d = .live then false else c) = decide (d ≠ .live) := by
    rcases settled with hd | hd | hd <;> simp [hd]
  have budget (b r : Budget) : (if before = some zone then (if !decide (d = s.hinge.dataState) then r else b) else r) =
      if d = s.hinge.dataState ∧ before = some zone then b else r := by
    by_cases hz : before = some zone <;> by_cases hd : d = s.hinge.dataState <;> simp [hz, hd]
  have stored : noteEstimated false (storeSample .B f.v i' f.t f.farOt (if d = .live then i' else s.budget.cmd.b) (onGood g)) = u := by
    rw [storeSample_eq_noted (lim.symm ▸ hl) _ _ _ _ _ zone (by rw [read, lim]), noteEstimated_eq, counted, read]
    have again : (withRequest (onGood g)).budget = (withRequest s).budget := by
      rw [good]
      cases (!decide (d = s.hinge.dataState)) <;> rfl
    have latched (l k : BitVec 26) (c : Prop) [Decidable c] : (if c then l else l ||| k) = l ||| if c then 0 else k := by
      split <;> simp
    have kept : (onGood g).budget = if !decide (d = s.hinge.dataState) then (withRequest s).budget else s.budget := by
      rw [good, noted_eq]
      rfl
    change ({ onGood g with
      budget := if before = some zone then (onGood g).budget else (withRequest (onGood g)).budget
      mon := { (onGood g).mon with
        b := ⟨some ⟨f.v, i', f.t, f.farOt, zone, n⟩, if (onGood g).hinge.dataState = .stale ∨ (onGood g).hinge.dataState = .degraded
          then true else if (onGood g).hinge.dataState = .live then false else (onGood g).mon.b.estimated, false⟩ }
      cond := { (onGood g).cond with
        latched := if before = none ∨ before = some zone then (onGood g).cond.latched
          else (onGood g).cond.latched ||| cellFlag .B 0x40000#26 } } : State) = u
    rw [again, kept, budget, latched, state, estimated, good, noted_eq]
    rfl
  have row : exec (.sample (sampleLine m) order) s = .next (sampleRead (sampleLine m) order s) := rfl
  change exec (.sample (sampleLine m) order) s = _
  rw [row, sampleRead, he, sampleOfLine_sampleLine]
  dsimp only
  rw [judgeSample, if_pos ok, goodExchange, farSampleOf_eq]
  exact (congrArg _ (accepted.trans (congrArg _ stored))).trans (by cases order <;> rfl)

end Sys2Proof.Machine
end

section
/-! The ports' commands and timers, the port step and the arbiter (8, 9). -/

namespace Sys2Proof.Machine

/-! ### Commands by their arguments (R158, R172) -/

/-- A host command's row on a frame the port takes: what the command leaves of the state after the edges, with its answer. -/
theorem next_commandFrame {cmd : List Byte → State → Result} {args : List Byte} {s : State} {r : Result} (h : takesFrame s)
    (hn : args.length ≤ 32) (hr : cmd args (afterEdges s) = r) :
    Host.Outcome.next (ρ := Refusal) (φ := Fault) (commandFrame (runCommand cmd) args s) = .next (answered r.st r.out r.payload) := by
  rw [commandFrame_runCommand cmd args s h hn, hr]

/-! ### APPLIED and ISOLATE (R138, R143) -/

/-- A port out of ISOLATED: detection anew, or selection's result (R143). -/
theorem isolateOff_eq (P : Nat) (l : Limits) (q : Port) :
    isolateOff P l q = if q.offers = [] then ⟨{ q with st := .detecting, timer := some 500 }, []⟩
      else match selection P l q.offers with
        | some r => ⟨{ q with st := .proposed, prop := some r, timer := some 1000 }, [.contractProposed]⟩
        | none => ⟨{ q with st := .rejected .noCommon, held := none, prop := none, ie := 0, timer := none }, [.contractRejected]⟩ := rfl

/-- APPLIED of a port (R138). -/
theorem appliedCmd_eq {args : List Byte} {p : PortId} {s : State} {q : Port} (h : portArg args = some p) (hq : s.port.get p = q) :
    appliedCmd args s = if q.st = .proposed then doneWith (stepPort p ⟨{ q with st := .confirming, timer := some 200 }, []⟩ s)
      else refuse s .wrongState := by
  rw [appliedCmd, h, ← hq]
  rfl

/-- ISOLATE on of a port (R143). -/
theorem isolateCmd_on {args : List Byte} {p : PortId} {s : State} {q : Port} (h : portOnOff args = some (p, true))
    (hq : s.port.get p = q) :
    isolateCmd args s = if q.st = .rejected .overvoltage then refuse s .wrongState else if q.st = .detached then refuse s .wrongState
      else if q.st = .isolated then doneWith s else doneWith (stepPort p (isolateOn q) s) := by
  rw [isolateCmd, h, ← hq]
  rfl

/-- ISOLATE off of a port (R143). -/
theorem isolateCmd_off {args : List Byte} {p : PortId} {s : State} {q : Port} (h : portOnOff args = some (p, false))
    (hq : s.port.get p = q) :
    isolateCmd args s = if q.st = .rejected .overvoltage then refuse s .wrongState
      else if q.st = .isolated then doneWith (stepPort p (isolateOff (portCeiling s p) s.lim q) s) else doneWith s := by
  rw [isolateCmd, h, ← hq]
  rfl

/-- Settles O45, by the port's state. -/
theorem appliedAndIsolateActByPortState : Obligations.AppliedAndIsolateActByPortState := by
  intro s p hf b q takes
  have port : portArg [b] = some p := by cases p <;> rfl
  have on : portOnOff [b, 1] = some (p, true) := by cases p <;> rfl
  have off : portOnOff [b, 0] = some (p, false) := by cases p <;> rfl
  have applied (r : Result) (h : appliedCmd [b] (afterEdges s) = r) :
      exec (.applied [b]) s = .next (answered r.st r.out r.payload) := next_commandFrame hf (by simp) h
  have isolate (o : Byte) (r : Result) (h : isolateCmd [b, o] (afterEdges s) = r) :
      exec (.isolate [b, o]) s = .next (answered r.st r.out r.payload) := next_commandFrame hf (by simp) h
  have same : (afterEdges s).port.get p = q := rfl
  refine ⟨fun hst => applied ⟨_, .done, []⟩ ?_, fun hst => applied (refuse (afterEdges s) .wrongState) ?_,
    fun hst => isolate 0 (refuse (afterEdges s) .wrongState) ?_, fun hst => isolate 1 (refuse (afterEdges s) .wrongState) ?_,
    fun hst => isolate 1 (doneWith (afterEdges s)) ?_, fun hne hov => isolate 0 (doneWith (afterEdges s)) ?_,
    fun hne hov hdet => isolate 1 ⟨_, .done, []⟩ ?_, fun hst => ⟨fun ho => isolate 0 ⟨_, .done, []⟩ ?_,
      fun ho hs => isolate 0 ⟨_, .done, []⟩ ?_, fun r ho hs => isolate 0 ⟨_, .done, []⟩ ?_⟩⟩
  · rw [appliedCmd_eq port same, if_pos hst]
    rfl
  · rw [appliedCmd_eq port same, if_neg hst]
  · rw [isolateCmd_off off same, if_pos hst]
  · rw [isolateCmd_on on same]
    rcases hst with hst | hst <;> simp [hst]
  · rw [isolateCmd_on on same]
    simp [hst]
  · rw [isolateCmd_off off same, if_neg hov, if_neg hne]
  · rw [isolateCmd_on on same, if_neg hov, if_neg hdet, if_neg hne]
    rfl
  · rw [isolateCmd_off off same, if_neg (by simp [hst]), if_pos hst, isolateOff_eq, if_pos ho]
    rfl
  · rw [isolateCmd_off off same, if_neg (by simp [hst]), if_pos hst, isolateOff_eq, if_neg ho, portCeiling_afterEdges]
    change doneWith (stepPort p (match selection (portCeiling s p) s.lim q.offers with | some r => _ | none => _) _) = _
    rw [hs]
    rfl
  · rw [isolateCmd_off off same, if_neg (by simp [hst]), if_pos hst, isolateOff_eq, if_neg ho, portCeiling_afterEdges]
    change doneWith (stepPort p (match selection (portCeiling s p) s.lim q.offers with | some r => _ | none => _) _) = _
    rw [hs]
    rfl

/-! ### The port timers (R136, R138) -/

theorem inDefaultWindow_iff (v : Nat) : inDefaultWindow v = true ↔ 4400 ≤ v ∧ v ≤ 5600 := by
  simp [inDefaultWindow]

theorem defaultQualified_iff (l : Limits) : defaultQualified l = true ↔
    ∃ a ∈ l.profile.toList, a.imax ≠ 0 ∧ a.vlo ≤ 5000 ∧ 5000 ≤ a.vhi ∧ l.defaultI ≤ a.imax := by
  simp only [defaultQualified, List.any_eq_true, Bool.and_eq_true, bne_iff_ne, decide_eq_true_eq, and_assoc]

/-- Within 5 % in the terms of R138. -/
theorem within5_iff (vin v : Nat) : within5 vin v = true ↔ ((vin - v) + (v - vin)) * 20 ≤ v := by
  have : absDiff vin v = (vin - v) + (v - vin) := by
    unfold absDiff
    split <;> omega
  rw [within5, this, decide_eq_true_eq]

/-- Settles O47: default classification once, and each timer by the state it runs in. -/
theorem portTimersDecideThePort : Obligations.PortTimersDecideThePort := by
  intro s p q top inWindow rejected fiveVolts qualified goes classifies
  have five (o : Origin) : takeContract (portCeiling s p) (fiveVolt (portCeiling s p) s.lim o) q = fiveVolts o := by
    have least : min (min s.lim.defaultI top) top = min s.lim.defaultI top := by rw [min_assoc, min_self]
    change (⟨{ q with
      st := .ready, held := _, prop := none, ie := min (min s.lim.defaultI top) top, timer := none }, _⟩ : PortStep) = _
    rw [least]
    rfl
  have classified (row : Instr) (hrow : exec row s = .next (stepPort p (classify (portCeiling s p) s.lim q) s)) : classifies row := by
    rw [classify, five] at hrow
    refine ⟨fun hw => ?_, fun hw hq => ?_, fun hw hq => ?_⟩
    · rwa [if_pos (by simpa using mt (inDefaultWindow_iff _).mp hw)] at hrow
    · rwa [if_neg (by simpa using (inDefaultWindow_iff _).mpr hw), if_pos (by simpa using mt (defaultQualified_iff _).mp hq)] at hrow
    · rwa [if_neg (by simpa using (inDefaultWindow_iff _).mpr hw), if_neg (by simpa using (defaultQualified_iff _).mpr hq)] at hrow
  have offer : exec (.offerWindowExpiry p) s = .next (offerWindowExpiry p s) := rfl
  have confirm : exec (.confirmTimerExpiry p) s = .next (confirmExpiry p s) := rfl
  have verify : exec (.verifyWindowExpiry p) s = .next (verifyExpiry p s) := rfl
  have decided (w : PortStep) (hst : q.st = .confirming) (ht : q.timer = some 0)
      (hw : verifyDecision (portCeiling s p) s.lim q = w) : goes (.verifyWindowExpiry p) w := by
    change exec _ s = _
    rw [verify, verifyExpiry, if_pos ⟨hst, ht⟩, ← hw]
  have near_iff : (q.held.any fun h => within5 q.vin h.v) = true ↔ ∃ h, q.held = some h ∧ ((q.vin - h.v) + (h.v - q.vin)) * 20 ≤ h.v := by
    simp only [Option.any_eq_true, within5_iff]
  refine ⟨fun hst ht => classified _ ?_, fun h => ?_, fun hst ht => ⟨fun hh => classified _ ?_, fun hh => ?_⟩,
    fun h => ?_, fun hst ht => ⟨fun near => decided _ hst ht ?_, fun far inside => decided _ hst ht ?_,
      fun far outside => decided _ hst ht ?_⟩, fun h => ?_⟩
  · rw [offer, offerWindowExpiry, if_pos ⟨hst, ht⟩]
  · rw [offer, offerWindowExpiry, if_neg (by tauto)]
  · rw [confirm, confirmExpiry, if_pos ⟨hst, ht⟩, if_neg (by simpa using hh)]
    rfl
  · change exec _ s = _
    rw [confirm, confirmExpiry, if_pos ⟨hst, ht⟩, if_pos (by simpa [Option.isSome_iff_ne_none] using hh)]
    rfl
  · rw [confirm, confirmExpiry, if_neg (by tauto)]
  · rw [verifyDecision, if_pos (near_iff.mpr near)]
    rfl
  · rw [verifyDecision, if_neg (mt near_iff.mp far), if_pos ((inDefaultWindow_iff _).mpr inside), five]
  · rw [verifyDecision, if_neg (mt near_iff.mp far), if_neg (mt (inDefaultWindow_iff _).mp outside)]
    rfl
  · rw [verify, verifyExpiry, if_neg (by tauto)]

/-! ### The port step and the arbiter (R139, R146 to R149) -/

theorem Port.eligible_iff (q : Port) : q.eligible = true ↔ q.held.isSome = true ∧ (q.st = .ready ∨ q.st = .proposed ∨ q.st = .confirming) := by
  simp [Port.eligible, or_assoc]

/-- A gain reaches the arbiter (R147). -/
theorem stepPort_gain {p : PortId} {w : PortStep} {s : State} (hold : (s.port.get p).eligible = false) (hnew : w.port.eligible = true) :
    stepPort p w s = arbGain p (portStepped p w s) := by
  have now : eligible (portStepped p w s) p = true := by simp [eligible, portStepped, hnew]
  rw [stepPort_eq, handEligibility, hold, now]
  rfl

/-- A loss reaches the arbiter (R148). -/
theorem stepPort_loss {p : PortId} {w : PortStep} {s : State} (hold : (s.port.get p).eligible = true) (hnew : w.port.eligible = false) :
    stepPort p w s = arbLoss p (portStepped p w s) := by
  have now : eligible (portStepped p w s) p = false := by simp [eligible, portStepped, hnew]
  rw [stepPort_eq, handEligibility, hold, now]
  rfl

/-- Settles O48: the port step is one lemma, and a gain or a loss acts by the arbiter's state. -/
theorem portChangeReachesTheArbiter : Obligations.PortChangeReachesTheArbiter := by
  intro s p w old kept u feeds other preferred
  have stepped : portStepped p w s = u := rfl
  have feeds_iff (q : Port) : q.eligible = true ↔ feeds q := Port.eligible_iff q
  have other_eq : otherPort p = other := by cases p <;> rfl
  have ne : other ≠ p := by cases p <;> simp [other]
  refine ⟨fun same => ?_, fun hold h hh hnew => ?_, fun hold hnew => ?_⟩
  · rw [stepPort_of_same_eligibility _ _ _ (Bool.eq_iff_iff.mpr ((feeds_iff _).trans (same.trans (feeds_iff _).symm)))]
    exact stepped
  · have gain := stepPort_gain (Bool.eq_false_iff.mpr (mt (feeds_iff old).mp hold)) ((feeds_iff w.port).mpr hnew)
    rw [stepped, arbGain, show u.arb.st = s.arb.st from rfl, show u.arb.brk = s.arb.brk from rfl] at gain
    have held : (u.port.get p).held = some h := by
      change ((s.port.set p w.port).get p).held = some h
      simp [hh]
    refine ⟨fun ha hb => ?_, fun ha hb => ?_, fun ha hp => ?_, fun ha hp => ?_, fun ha => ?_⟩
    · rw [gain, ha, hb, if_neg (by simp), goActive_eq p h u held]
    · rw [gain, ha, if_pos (Option.isSome_iff_ne_none.mpr hb), goIdle_eq]
    · rw [gain, ha]
      exact (if_pos ⟨ne, hp⟩).trans (leaveActive_eq _ _)
    · rw [gain, ha]
      exact if_neg fun h => hp h.2
    · rcases ha with ha | ha
      · rw [gain, ha]
        exact if_neg fun h => h.1 rfl
      · rw [gain, ha]
  · have loss := stepPort_loss ((feeds_iff old).mpr hold) (Bool.eq_false_iff.mpr (mt (feeds_iff w.port).mp hnew))
    rw [stepped, arbLoss, show u.arb.st = s.arb.st from rfl, other_eq] at loss
    have its : eligible u other = (s.port.get other).eligible := by
      change ((s.port.set p w.port).get other).eligible = _
      cases p <;> rfl
    refine ⟨fun ha ho => ?_, fun ha ho => ?_, fun ha => ?_⟩
    · rw [loss, ha, if_pos (its.trans ((feeds_iff _).mpr ho))]
      exact (if_pos rfl).trans (leaveActive_eq _ _)
    · rw [loss, ha, if_neg (by rw [its]; exact mt (feeds_iff _).mp ho)]
      exact (if_pos rfl).trans (leaveActive_eq _ _)
    · rw [loss]
      split
      · next q hq => exact if_neg fun (h : q = p) => ha (h ▸ hq)
      · rfl
      · rfl

/-- Settles O49: the chosen port by eligibility, and the die zone by its two borders. -/
theorem breakEndsAndDieZoneMoves : Obligations.BreakEndsAndDieZoneMoves := by
  intro s stopped feeds first second
  have brk : exec .breakTimerExpiry s = .next (breakExpiry s) := rfl
  have feeds_iff (p : PortId) : eligible stopped p = true ↔ feeds p := Port.eligible_iff _
  have pref : preferredPort stopped.lim = first := rfl
  have rest : otherPort first = second := by
    change otherPort (if s.lim.cablePreferred = 1 then .cable else .coil) = if s.lim.cablePreferred = 1 then .coil else .cable
    split <;> rfl
  have ended (hb : s.arb.brk = some 0) (ha : s.arb.st = .changeover) : breakExpiry s = endChangeover stopped := by
    rw [breakExpiry, if_pos hb]
    exact if_pos ha
  refine ⟨fun hb => ?_, fun hb => ⟨fun ha => ?_, fun ha => ⟨fun h hh hf => ?_, fun h hf hh hs => ?_, fun hf hs => ?_⟩⟩, fun t =>
    ⟨fun hd ht => ?_, fun hd ht => ?_, fun hd ht => ?_, fun hd ht => ?_⟩⟩
  · rw [brk, breakExpiry, if_neg hb]
  · rw [brk, breakExpiry, if_pos hb]
    exact congrArg _ (if_neg ha)
  · rw [brk, ended hb ha, endChangeover, chosenPort, pref, if_pos ((feeds_iff _).mpr hf)]
    exact congrArg _ (congrArg (latch .changeoverDone) (goActive_eq first h stopped hh))
  · rw [brk, ended hb ha, endChangeover, chosenPort, pref, rest, if_neg (mt (feeds_iff _).mp hf), if_pos ((feeds_iff _).mpr hs)]
    exact congrArg _ (congrArg (latch .changeoverDone) (goActive_eq second h stopped hh))
  · rw [brk, ended hb ha, endChangeover, chosenPort, pref, rest, if_neg (mt (feeds_iff _).mp hf), if_neg (mt (feeds_iff _).mp hs)]
    exact congrArg _ (goIdle_eq .none stopped)
  all_goals
    have ht' := clampInt_eq_min_max (-40) 150 t (by omega)
    have row : exec (.dieSample t) s = .next (dieSample t s) := rfl
    rw [row, dieSample]
    dsimp only
    rw [ht']
  · rw [if_pos ⟨hd, by omega⟩]
    rfl
  · rw [if_neg (by omega), if_neg (by simp [hd])]
    rfl
  · rw [if_neg (by simp [hd]), if_pos ⟨hd, by omega⟩]
    rfl
  · rw [if_neg (by simp [hd]), if_neg (by omega)]
    rfl

end Sys2Proof.Machine
end

section
/-! The ports' samples, OFFERS and re-evaluation (8.2, 8.4, 8.8, 9.2). -/

namespace Sys2Proof.Machine

/-! ### Samples of an input voltage (R130, R131, R138, R151) -/

theorem attachTest_eq (q : Port) : attachTest q =
    if q.vin < 4000 then ⟨{ q with attachRun := 0 }, []⟩
    else if 2 ≤ q.attachRun then attach q else ⟨{ q with attachRun := q.attachRun + 1 }, []⟩ := by
  rw [attachTest]
  by_cases hv : q.vin < 4000
  · rw [if_neg (Nat.not_le.mpr hv), if_pos hv]
    rfl
  · rw [if_pos (Nat.not_lt.mp hv), if_neg hv]
    by_cases hn : 2 ≤ q.attachRun
    · exact (if_pos (by omega)).trans (if_pos hn).symm
    · exact (if_neg (by omega)).trans (if_neg hn).symm

theorem detachTest_eq (q : Port) : detachTest q =
    if 3500 ≤ q.vin then ⟨{ q with detachRun := 0 }, []⟩
    else if 2 ≤ q.detachRun then detach q else ⟨{ q with detachRun := q.detachRun + 1 }, []⟩ := by
  rw [detachTest]
  by_cases hv : 3500 ≤ q.vin
  · rw [if_neg (Nat.not_lt.mpr hv), if_pos hv]
    rfl
  · rw [if_pos (Nat.not_le.mp hv), if_neg hv]
    by_cases hn : 2 ≤ q.detachRun
    · exact (if_pos (by omega)).trans (if_pos hn).symm
    · exact (if_neg (by omega)).trans (if_neg hn).symm

/-- The overvoltage test in the terms of R151. -/
theorem overvoltageTest_eq (P : Nat) (q : Port) : overvoltageTest P q =
    if q.st = .detached ∨ q.st = .rejected .overvoltage then ⟨q, []⟩
    else if ovReference q * 11 < q.vin * 10 ∧ 1 ≤ q.ovRun then tripOvervoltage q
    else verifyTest P { q with ovRun := if ovReference q * 11 < q.vin * 10 then 1 else 0 } := by
  rw [overvoltageTest]
  by_cases hst : q.st = .detached ∨ q.st = .rejected .overvoltage
  · rw [if_pos hst, if_pos hst]
    rfl
  · rw [if_neg hst, if_neg hst]
    by_cases hv : ovReference q * 11 < q.vin * 10
    · rw [if_pos hv, if_pos hv]
      by_cases hn : 1 ≤ q.ovRun
      · exact (if_pos (by omega)).trans (if_pos ⟨hv, hn⟩).symm
      · have none : q.ovRun = 0 := by omega
        rw [none]
        exact (if_neg (by omega)).trans (if_neg (by omega)).symm
    · rw [if_neg hv, if_neg hv]
      exact (if_neg (by omega)).trans (if_neg (by tauto)).symm

/-- Settles O46: each test is one lemma, and each run's row acts in the states that count it. -/
theorem inputSamplesStepTheRuns : Obligations.InputSamplesStepTheRuns := by
  intro s p vin q attached detached tripped a q1 ref b
  have hv := clampInt_eq_min_max 0 20000 vin (by omega)
  have first : (if q.st = .detached then attachTest q else detachTest q) = ⟨a.1, a.2⟩ := by
    rw [attachTest_eq, detachTest_eq]
    dsimp only [a]
    split_ifs <;> rfl
  have reference : ovReference q1 = ref := by
    rw [ovReference]
    dsimp only [ref]
    cases q1.held <;> cases q1.prop <;> rfl
  have second : overvoltageTest (portCeiling s p) q1 = ⟨b.1, b.2⟩ := by
    rw [overvoltageTest_eq, reference]
    by_cases hst : q1.st = .detached ∨ q1.st = .rejected .overvoltage
    · dsimp only [b]
      rw [if_pos hst, if_pos hst]
    · by_cases ho : ref * 11 < q1.vin * 10 ∧ 1 ≤ q1.ovRun
      · dsimp only [b]
        rw [if_neg hst, if_neg hst, if_pos ho, if_pos ho]
        rfl
      · dsimp only [b]
        rw [if_neg hst, if_neg hst, if_neg ho, if_neg ho, verifyTest]
        dsimp only
        cases q1.st with
        | confirming =>
          cases q1.prop with
          | some c =>
            dsimp only
            rw [ite_congr (propext (within5_iff _ _)) (fun _ => rfl) (fun _ => rfl)]
            split <;> rfl
          | none => rfl
        | _ => rfl
  refine ⟨?_, fun hst => ⟨?_, ?_, ?_⟩, fun hst => ⟨?_, ?_, ?_⟩⟩
  · have row : exec (.inputSample p vin) s = .next (inputSample p vin s) := rfl
    rw [row, inputSample, hv]
    change Host.Outcome.next (stepPort p (sampleTests (portCeiling s p) q) _) = _
    rw [sampleTests, first]
    change Host.Outcome.next (stepPort p ⟨(overvoltageTest (portCeiling s p) q1).port, a.2 ++ (overvoltageTest (portCeiling s p) q1).conds⟩ _) = _
    rw [second]
    rfl
  · exact congrArg _ (if_pos hst)
  · exact congrArg _ (if_pos hst)
  · exact congrArg _ (if_pos (.inl hst))
  · exact congrArg _ (if_neg hst)
  · exact congrArg _ (if_neg hst)
  · have row : exec (.inputOvervoltageRun p) s = .next (inputOvervoltageRun p s) := rfl
    rw [row, inputOvervoltageRun]
    exact congrArg _ (by simp only [hst, false_or]; rfl)

/-! ### OFFERS (R134, R137) -/

theorem bytesOf_five (n : Nat) : bytesOf 5 n =
    [BitVec.ofNat 8 (n / 256 ^ 4), BitVec.ofNat 8 (n / 256 ^ 3), BitVec.ofNat 8 (n / 256 ^ 2), BitVec.ofNat 8 (n / 256 ^ 1),
      BitVec.ofNat 8 (n / 256 ^ 0)] := rfl

/-- The figure of an entry's five bytes. -/
def offerFigure : Offer → Nat
  | .fixed v i => v / 10 * 2 ^ 27 + i * 8
  | .range lo hi i => 2 ^ 38 + lo / 10 * 2 ^ 27 + hi / 10 * 2 ^ 16 + i * 8

theorem offerBytes_eq (o : Offer) : offerBytes o = bytesOf 5 (offerFigure o) := by
  cases o <;> rfl

/-- An entry that five bytes can carry reads back (R172). -/
theorem offerOf_offerFigure {o : Offer} (h : carriedOffer o) : offerOf (offerFigure o) = some o ∧ offerFigure o < 256 ^ 5 := by
  cases o with
  | fixed v i =>
    simp only [carriedOffer, Bool.and_eq_true, beq_iff_eq, decide_eq_true_eq] at h
    obtain ⟨⟨hv, hvm⟩, hi⟩ := h
    rw [offerOf, offerFigure]
    have kind : (v / 10 * 2 ^ 27 + i * 8) / 2 ^ 38 % 4 = 0 := by omega
    have volt : (v / 10 * 2 ^ 27 + i * 8) / 2 ^ 27 % 2 ^ 11 * 10 = v := by omega
    have cur : (v / 10 * 2 ^ 27 + i * 8) / 2 ^ 3 % 2 ^ 13 = i := by omega
    exact ⟨by simp only [kind, volt, cur], by omega⟩
  | range lo hi i =>
    simp only [carriedOffer, Bool.and_eq_true, beq_iff_eq, decide_eq_true_eq] at h
    obtain ⟨⟨⟨⟨hl, hlm⟩, hh⟩, hhm⟩, hcur⟩ := h
    rw [offerOf, offerFigure]
    have kind : (2 ^ 38 + lo / 10 * 2 ^ 27 + hi / 10 * 2 ^ 16 + i * 8) / 2 ^ 38 % 4 = 1 := by omega
    have low : (2 ^ 38 + lo / 10 * 2 ^ 27 + hi / 10 * 2 ^ 16 + i * 8) / 2 ^ 27 % 2 ^ 11 * 10 = lo := by omega
    have high : (2 ^ 38 + lo / 10 * 2 ^ 27 + hi / 10 * 2 ^ 16 + i * 8) / 2 ^ 16 % 2 ^ 11 * 10 = hi := by omega
    have cur : (2 ^ 38 + lo / 10 * 2 ^ 27 + hi / 10 * 2 ^ 16 + i * 8) / 2 ^ 3 % 2 ^ 13 = i := by omega
    exact ⟨by simp only [kind, low, high, cur], by omega⟩

/-- The entries of an argument list, one by one. The reading of an entry is made opaque before the recursion is unfolded: the kernel
would work out `offerOf`'s divisions on the bytes, which it cannot. -/
theorem offerList_cons (b4 b3 b2 b1 b0 : Byte) (rest : List Byte) :
    offerList (b4 :: b3 :: b2 :: b1 :: b0 :: rest) =
      match offerOf (unsignedOf [b4, b3, b2, b1, b0]), offerList rest with
      | some o, some os => some (o :: os)
      | _, _ => none := by
  have fixed : offerList = fun x => List.brecOn x offerList._f := by
    funext x
    delta offerList
    rfl
  generalize offerList = list at fixed ⊢
  delta offerList._f at fixed
  generalize offerOf = read at fixed ⊢
  subst fixed
  as_aux_lemma => rfl

/-- A list of entries reads back (R172). -/
theorem offerList_flatMap {os : List Offer} (h : os.all carriedOffer) : offerList (os.flatMap offerBytes) = some os := by
  induction os with
  | nil => rfl
  | cons o os ih =>
    rw [List.all_cons, Bool.and_eq_true] at h
    obtain ⟨ho, hos⟩ := h
    obtain ⟨reads, small⟩ := offerOf_offerFigure ho
    have figure := unsignedOf_bytesOf 5 (offerFigure o) small
    rw [bytesOf_five] at figure
    rw [List.flatMap_cons, offerBytes_eq, bytesOf_five]
    simp only [List.cons_append, List.nil_append, offerList_cons, figure, reads, ih hos]

theorem length_flatMap_offerBytes (os : List Offer) : (os.flatMap offerBytes).length = 5 * os.length := by
  induction os with
  | nil => rfl
  | cons o os ih =>
    rw [List.flatMap_cons, List.length_append, ih, offerBytes_eq, length_bytesOf, List.length_cons]
    omega

/-- The argument list of an OFFERS frame reads back (R172). -/
theorem offersArgs_flatMap {p : PortId} {os : List Offer} (h1 : 1 ≤ os.length) (h : os.all carriedOffer) :
    offersArgs ((match p with | .cable => 0 | .coil => 1) :: os.flatMap offerBytes) = some (p, os) := by
  have list := offerList_flatMap h
  have long := length_flatMap_offerBytes os
  cases hb : os.flatMap offerBytes with
  | nil =>
    rw [hb, List.length_nil] at long
    omega
  | cons b rest =>
    rw [hb] at list
    cases p <;> simp only [offersArgs, list] <;> rfl

/-- An entry is valid as R134 says. -/
theorem valid_eq_validOffer (o : Offer) : o.valid = validOffer o := by
  rw [Bool.eq_iff_iff]
  cases o with
  | fixed v i =>
    simp only [Offer.valid, validOffer, offerVoltOk, offerCurOk, Bool.and_eq_true, beq_iff_eq, decide_eq_true_eq]
    omega
  | range lo hi i =>
    simp only [Offer.valid, validOffer, offerVoltOk, offerCurOk, Bool.and_eq_true, beq_iff_eq, decide_eq_true_eq]
    omega

theorem equalsHeld_iff (r : Proposal) (q : Port) : equalsHeld r q = true ↔ ∃ h, q.held = some h ∧ h.v = r.v ∧ h.i = r.i := by
  simp only [equalsHeld, Option.any_eq_true, Bool.and_eq_true, beq_iff_eq]

theorem equalsProposal_iff (r : Proposal) (q : Port) : equalsProposal r q = true ↔
    (q.st = .proposed ∨ q.st = .confirming) ∧ ∃ c, q.prop = some c ∧ c.v = r.v ∧ c.i = r.i := by
  simp only [equalsProposal, Option.any_eq_true, Bool.and_eq_true, Bool.or_eq_true, beq_iff_eq]

/-- A result equal to the held contract (R137). -/
theorem takeResult_of_held {r : Proposal} {q : Port} (h : ∃ h, q.held = some h ∧ h.v = r.v ∧ h.i = r.i) :
    takeResult (some r) q = ⟨{ q with
      st := .ready, prop := none, timer := none, held := some ⟨r.v, r.i, .negotiated r.offer⟩ }, []⟩ :=
  if_pos ((equalsHeld_iff r q).mpr h)

/-- A result equal to the proposal in flight (R137). -/
theorem takeResult_of_prop {r : Proposal} {q : Port} (h : ∀ h, q.held = some h → ¬(h.v = r.v ∧ h.i = r.i))
    (hp : (q.st = .proposed ∨ q.st = .confirming) ∧ ∃ c, q.prop = some c ∧ c.v = r.v ∧ c.i = r.i) :
    takeResult (some r) q = ⟨q, []⟩ :=
  (if_neg (mt (equalsHeld_iff r q).mp fun ⟨c, hc, hvi⟩ => h c hc hvi)).trans (if_pos ((equalsProposal_iff r q).mpr hp))

/-- A new result (R137). -/
theorem takeResult_new {r : Proposal} {q : Port} (h : ∀ h, q.held = some h → ¬(h.v = r.v ∧ h.i = r.i))
    (hp : ¬((q.st = .proposed ∨ q.st = .confirming) ∧ ∃ c, q.prop = some c ∧ c.v = r.v ∧ c.i = r.i)) :
    takeResult (some r) q = ⟨{ q with st := .proposed, prop := some r, timer := some 1000 }, [.contractProposed]⟩ :=
  (if_neg (mt (equalsHeld_iff r q).mp fun ⟨c, hc, hvi⟩ => h c hc hvi)).trans (if_neg (mt (equalsProposal_iff r q).mp hp))

/-- A port step that moves neither the contract nor eligibility, and latches nothing. -/
theorem stepPort_unnoticed {p : PortId} {q : Port} {s : State} (held : q.held = (s.port.get p).held) (st : q.st = (s.port.get p).st) :
    stepPort p ⟨q, []⟩ s = { s with port := s.port.set p q } := by
  have same : contractOf (s.port.get p) = contractOf q := by rw [contractOf, contractOf, held]
  rw [stepPort_of_same_eligibility _ _ _ (by rw [Port.eligible, Port.eligible, held, st]), portStepped, if_pos same]
  rfl

/-- OFFERS with entries read, in the port states that take them (R137). -/
theorem offersCmd_eq {args : List Byte} {p : PortId} {os : List Offer} (h : offersArgs args = some (p, os)) (s : State) :
    offersCmd args s =
      if os.filter validOffer = [] then refuse s .badArg
      else if (s.port.get p).st = .isolated then
        ⟨stepPort p ⟨{ s.port.get p with offers := os.filter validOffer }, []⟩ s,
          if os.filter validOffer = os then .done else .doneClamped, []⟩
      else if (s.port.get p).st.selects then
        ⟨stepPort p (takeResult (selection (portCeiling s p) s.lim (os.filter validOffer))
          { s.port.get p with offers := os.filter validOffer }) s, if os.filter validOffer = os then .done else .doneClamped, []⟩
      else refuse s .wrongState := by
  have same : os.filter Offer.valid = os.filter validOffer := List.filter_congr fun o _ => valid_eq_validOffer o
  have all : (os.filter validOffer).length = os.length ↔ os.filter validOffer = os :=
    ⟨fun h => List.filter_sublist.eq_of_length h, fun h => congrArg _ h⟩
  rw [offersCmd, h]
  dsimp only
  rw [same, ite_congr (propext all) (fun _ => rfl) (fun _ => rfl)]
  rfl

/-- Settles O43: the frame reads back as its entries, and the port's state decides. -/
theorem offersDecideByPortState : Obligations.OffersDecideByPortState := by
  intro s p os hf h1 h6 carried row kept out q takes
  have offers (r : Result) (h : ∀ args, offersArgs args = some (p, os) → offersCmd args (afterEdges s) = r) :
      exec row s = .next (answered r.st r.out r.payload) := by
    refine next_commandFrame hf ?_ (h _ (offersArgs_flatMap h1 carried))
    rw [List.length_cons, length_flatMap_offerBytes]
    omega
  have same : (afterEdges s).port.get p = q := rfl
  have refused (out : Outc) (h : ∀ args, offersArgs args = some (p, os) → offersCmd args (afterEdges s) = refuse (afterEdges s) out) :
      answersOnly row s out [] := offers (refuse (afterEdges s) out) h
  refine ⟨fun hk => refused .badArg fun args ha => ?_, fun hk => ⟨fun hst => refused .wrongState fun args ha => ?_,
    fun hst => offers ⟨_, out, []⟩ fun args ha => ?_, fun hst => ?_⟩⟩
  · rw [offersCmd_eq ha, if_pos hk]
  · rw [offersCmd_eq ha, if_neg hk, same]
    rcases hst with hst | hst | hst | hst <;> simp [hst, PortState.selects]
  · rw [offersCmd_eq ha, if_neg hk, same, if_pos hst]
    exact congrArg (fun t => (⟨t, out, []⟩ : Result)) (stepPort_unnoticed rfl rfl)
  · have selects : q.st.selects = true := by
      rcases hst with hst | hst | hst | hst | hst <;> simp [hst, PortState.selects]
    have serves : q.st ≠ .isolated := by
      rcases hst with hst | hst | hst | hst | hst <;> simp [hst]
    have decided (w : PortStep) (h : takeResult (selection (portCeiling s p) s.lim kept) { q with offers := kept } = w) : takes w := by
      refine offers ⟨_, out, []⟩ fun args ha => ?_
      rw [offersCmd_eq ha, if_neg hk, same, if_neg serves, if_pos selects, portCeiling_afterEdges]
      exact congrArg (fun w => (⟨stepPort p w (afterEdges s), out, []⟩ : Result)) h
    refine ⟨fun hs => decided _ ?_, fun r hs => ⟨fun h hh hv hi => decided _ ?_, fun differs => ⟨fun hp => decided _ ?_, fun hp => decided _ ?_⟩⟩⟩
    · rw [hs]
      rfl
    · rw [hs]
      exact takeResult_of_held ⟨h, hh, hv, hi⟩
    · rw [hs]
      exact takeResult_of_prop differs hp
    · rw [hs]
      exact takeResult_new differs hp

/-! ### Re-evaluation (R142) -/

theorem reevaluated_iff (st : PortState) :
    st.reevaluated = true ↔ st = .ready ∨ st = .proposed ∨ st = .confirming ∨ st = .rejected .noCommon := by
  cases st with
  | rejected c => cases c <;> simp [PortState.reevaluated]
  | _ => simp [PortState.reevaluated]

theorem isDefault_iff (h : Held) : h.isDefault = true ↔ h.origin = .defaulted ∨ h.origin = .fallback := by
  rcases h with ⟨v, i, o⟩
  cases o <;> simp [Held.isDefault]

/-- Ie under the ceiling (R142, step 1). -/
theorem capIe_eq (P : Nat) (q : Port) : capIe P q = match q.held with
    | some h => { q with ie := min q.ie (ceilCurrent P h.v) }
    | none => q := by
  rw [capIe]
  cases q.held <;> rfl

/-- Steps 1 and 2 move the held current and Ie alone. -/
theorem requalify_capIe_frame (P : Nat) (l : Limits) (q : Port) :
    requalify P l (capIe P q) = { q with held := (requalify P l (capIe P q)).held, ie := (requalify P l (capIe P q)).ie } := by
  rcases q with ⟨st, offers, held, prop, ie, vin, ar, dr, ov, timer⟩
  cases held with
  | none => rfl
  | some h =>
    rcases h with ⟨v, i, o⟩
    cases o <;> rfl

theorem rejectPort_capIe (c : RejCause) (P : Nat) (q : Port) : rejectPort c (capIe P q) = rejectPort c q := by
  rw [capIe]
  split <;> rfl

/-- Ie under the ceiling, and a default contract qualified again (R142, steps 1 and 2). -/
theorem requalify_capIe (P : Nat) (l : Limits) (q : Port) :
    requalify P l (capIe P q) = match q.held with
      | some ⟨v, _, .defaulted⟩ =>
        { capIe P q with held := some ⟨v, min l.defaultI (ceilCurrent P 5000), .defaulted⟩, ie := min (capIe P q).ie (min l.defaultI (ceilCurrent P 5000)) }
      | some ⟨v, _, .fallback⟩ =>
        { capIe P q with held := some ⟨v, min l.defaultI (ceilCurrent P 5000), .fallback⟩, ie := min (capIe P q).ie (min l.defaultI (ceilCurrent P 5000)) }
      | some ⟨_, _, .negotiated _⟩ => capIe P q
      | none => capIe P q := by
  rcases q with ⟨st, offers, held, prop, ie, vin, ar, dr, ov, timer⟩
  cases held with
  | none => rfl
  | some h =>
    rcases h with ⟨v, i, o⟩
    cases o <;> rfl

/-- Settles O50: the step of a re-evaluated port, by whether its default contract lapses, its offers and selection. -/
theorem reevaluationRequalifiesAndReselects : Obligations.ReevaluationRequalifiesAndReselects := by
  intro s p q top taken q1 isDefault q2 qualified lapsed rejected
  have capped : capIe (portCeiling s p) q = q1 := capIe_eq _ q
  have requalified : requalify (portCeiling s p) s.lim (capIe (portCeiling s p) q) = q2 := by
    rw [requalify_capIe, capped]
    rfl
  have taken_iff : q.st.reevaluated = true ↔ taken := reevaluated_iff q.st
  have lapsed_iff : ((q.held.any fun h => h.isDefault) = true ∧ defaultQualified s.lim = false) ↔ lapsed := by
    rw [← Bool.not_eq_true, defaultQualified_iff]
    simp only [Option.any_eq_true, isDefault_iff]
    rfl
  refine ⟨?_, fun hn => ?_, fun ht => ⟨reevaluate (portCeiling s p) s.lim q, ?_, fun hl => ?_, fun hl => ?_⟩⟩
  · rw [reevaluateBoth]
    split
    · exact .inr rfl
    · exact .inl rfl
  · rw [reevaluatePort, if_neg (mt taken_iff.mp hn)]
  · rw [reevaluatePort, if_pos (taken_iff.mpr ht)]
    change requestPassIf (reevaluationLowers (portCeiling s p) s.lim q) _ = _
    rw [reevaluationLowers, capped, requestPassIf, requestPass_eq]
    simp only [Bool.or_eq_true, decide_eq_true_eq]
    rfl
  · rw [reevaluate, if_pos (lapsed_iff.mpr hl)]
    exact rejectPort_capIe _ _ q
  · have frame := requalify_capIe_frame (portCeiling s p) s.lim q
    rw [requalified] at frame
    have offers : q2.offers = q.offers := by rw [frame]
    have st : q2.st = q.st := by rw [frame]
    have prop : q2.prop = q.prop := by rw [frame]
    have reselected : reevaluate (portCeiling s p) s.lim q =
        if q.offers = [] then ⟨q2, []⟩ else takeResult (selection (portCeiling s p) s.lim q.offers) q2 := by
      rw [reevaluate, if_neg (mt lapsed_iff.mp hl), requalified, reselect, offers]
      rfl
    rw [← st, ← prop]
    refine ⟨fun ho => ?_, fun ho hs => ?_, fun r ho hs => ⟨fun h hh hv hi => ?_, fun differs => ⟨fun hp => ?_, fun hp => ?_⟩⟩⟩
    · rw [reselected, if_pos ho]
    · rw [reselected, if_neg ho, hs]
      change rejectPort .noCommon q2 = rejectPort .noCommon q
      rw [frame]
      rfl
    · rw [reselected, if_neg ho, hs]
      exact takeResult_of_held ⟨h, hh, hv, hi⟩
    · rw [reselected, if_neg ho, hs]
      exact takeResult_of_prop differs hp
    · rw [reselected, if_neg ho, hs]
      exact takeResult_new differs hp

end Sys2Proof.Machine
end

section
/-! The records' commands and timers (1.1 to 1.8, 12.4). -/

namespace Sys2Proof.Machine

/-! ### Timers that have run out (R19 to R23, R26) -/

theorem grantedDraw_slotOf {s : State} {k : Fin 24} {r : Record} (hr : recordOf s k = some r) :
    grantedDraw (slotOf s k) = if r.st = .granted then r.draw else 0 := by
  rw [recordOf] at hr
  rw [grantedDraw, hr]

/-- An expiry whose timer has run out ends the record (R23). -/
theorem expireWhere_of_due {due : Record → Bool} {s : State} {k : Fin 24} {r : Record} {c : EndCause} (hk : k ≠ 0)
    (hr : recordOf s k = some r) (hdue : due r = true) (hl : r.live = true) :
    expireWhere due k c s =
      if r.st = .granted then withRequest (putRecord k
        { r with st := .ended c, pendDraw := none, lifeRem := none, burstRem := none, waitRem := none, mark := true } s)
      else putRecord k
        { r with st := .ended c, pendDraw := none, lifeRem := none, burstRem := none, waitRem := none, mark := true } s := by
  simp only [expireWhere, hr, if_pos hdue, endRecord, if_pos hl, Record.finish_of_ne_zero hk, requestPassIf, requestPass_eq,
    decide_eq_true_eq]

/-- Elsewhere the expiry does not happen (R26). -/
theorem expireWhere_of_not_due {due : Record → Bool} {s : State} {k : Fin 24} {r : Record} {c : EndCause}
    (hr : recordOf s k = some r) (hdue : due r = false) : expireWhere due k c s = s := by
  simp only [expireWhere, hr, hdue]
  rfl

/-- Settles O26: the four timers are one lemma each way. -/
theorem recordExpiryEndsTheRecord : Obligations.RecordExpiryEndsTheRecord := by
  intro s k hk
  refine ⟨fun hr row hrow => ?_, fun r hr => ?_⟩
  · have free (due : Record → Bool) (c : EndCause) : expireWhere due k c s = s := by simp only [expireWhere, hr]
    simp only [List.mem_cons, List.not_mem_nil, or_false] at hrow
    rcases hrow with rfl | rfl | rfl | rfl
    · exact congrArg _ (free _ .lifetime)
    · exact congrArg _ (free _ .lapsed)
    · exact congrArg _ (free _ .overstay)
    · exact congrArg _ (free _ .waitLimit)
  · intro finish acts
    have ended (c : EndCause) : grantedSum (finish c) + (if r.st = .granted then r.draw else 0) = grantedSum s := by
      have sum := grantedSum_putRecord k
        { r with st := .ended c, pendDraw := none, lifeRem := none, burstRem := none, waitRem := none, mark := true } s
      rw [grantedDraw_slotOf hr] at sum
      simpa using sum
    have acted (row : Instr) (c : EndCause) (due : Record → Bool) (when : Prop)
        (hrow : exec row s = .next (expireWhere due k c s)) (hdue : due r = true ↔ when) (hlive : when → r.live = true) :
        acts row c when := by
      refine ⟨fun h => ⟨?_, ended c⟩, fun h => ?_⟩
      · rw [hrow, expireWhere_of_due hk hr (hdue.mpr h) (hlive h)]
      · rw [hrow, expireWhere_of_not_due hr (Bool.eq_false_iff.mpr (mt hdue.mp h))]
    have live (h : r.st = .granted) : r.live = true := by simp [Record.live, h]
    have waits : r.live = true ∧ r.st ≠ .granted ↔ r.st = .pending ∨ ∃ c, r.st = .waiting c := by
      cases hst : r.st <;> simp [Record.live, hst]
    refine ⟨acted _ .lifetime Record.lifetimeDue _ rfl r.lifetimeDue_iff And.left,
      acted _ .lapsed Record.burstDue _ rfl r.burstDue_iff fun h => live h.1,
      acted _ .overstay Record.burstTotalDue _ rfl r.burstTotalDue_iff fun h => live h.1,
      acted _ .waitLimit Record.waitLimitDue _ rfl ?_ fun h => (waits.mpr h.1).1⟩
    rw [r.waitLimitDue_iff, ← waits, and_assoc]

/-! ### The handle checks (R5) -/

/-- Checks 2 to 4 of R5 on a handle of a host slot. -/
theorem checkHandle_of_slot {h : HandleArgs} {k : Fin 24} (hk : k ≠ 0) (hsl : h.slot = k.val) (s : State) :
    checkHandle h s = match recordOf s k with
      | none => .error .staleHandle
      | some r =>
        if (slotOf s k).gen ≠ h.gen then .error .staleHandle
        else if h.owner ≠ r.owner ∧ h.owner ≠ 0 then .error .notOwner
        else .ok (k, r) := by
  rcases h with ⟨o, sl, g⟩
  cases hsl
  have hne : k.val ≠ 0 := fun e => hk (Fin.ext e)
  rw [checkHandle, dif_pos k.isLt, if_neg hne] <;> rfl

/-- Settles O21: each check refuses where those before it pass. -/
theorem handleChecksGiveTheFirstFailure : Obligations.HandleChecksGiveTheFirstFailure := by
  intro s o sl g d1 d0 hf
  have adjust (out : Outc) (h : adjustCmd [o, sl, g, d1, d0] (afterEdges s) = refuse (afterEdges s) out) :
      answersOnly (.adjust [o, sl, g, d1, d0]) s out [] := next_commandFrame hf (by simp) h
  have renew (out : Outc) (h : renewCmd [o, sl, g] (afterEdges s) = refuse (afterEdges s) out) :
      answersOnly (.renew [o, sl, g]) s out [] := next_commandFrame hf (by simp) h
  have release (out : Outc) (h : releaseCmd [o, sl, g] (afterEdges s) = refuse (afterEdges s) out) :
      answersOnly (.release [o, sl, g]) s out [] := next_commandFrame hf (by simp) h
  refine ⟨fun h => adjust .badArg ?_, fun h => ⟨renew .badArg ?_, release .badArg ?_⟩, fun ho h1 h2 => ?_⟩
  · rw [adjustCmd, adjustArgs, unsignedOf_two]
    simp only [if_neg h]
  · rw [renewCmd, handleArgs, if_neg h]
  · rw [releaseCmd, handleArgs, if_neg h]
  have adjusted := adjustArgs_of_inRange sl g ho h1 h2
  have named := handleArgs_of_owner_le sl g ho
  have failed (out : Outc) (hc : checkHandle ⟨o.toNat, sl.toNat, g⟩ (afterEdges s) = .error out) :
      ∀ row ∈ [Instr.adjust [o, sl, g, d1, d0], Instr.renew [o, sl, g], Instr.release [o, sl, g]], answersOnly row s out [] := by
    simp only [List.forall_mem_cons, List.not_mem_nil, false_implies, implies_true, and_true]
    refine ⟨adjust out ?_, renew out ?_, release out ?_⟩
    · simp only [adjustCmd, adjusted, hc]
    · simp only [renewCmd, named, hc]
    · simp only [releaseCmd, named, hc]
  intro row hrow
  refine ⟨fun h => failed .badHandle ?_ row hrow, fun h => failed .notOwner ?_ row hrow, fun k hk hsl =>
    ⟨fun hr => failed .staleHandle ?_ row hrow, fun hg => failed .staleHandle ?_ row hrow, fun r hr hg =>
      ⟨fun h1 h2 => failed .notOwner ?_ row hrow, fun hn hl hne => ?_⟩⟩⟩
  · rw [checkHandle, dif_neg (Nat.not_lt.mpr h)]
  · rw [checkHandle, dif_pos (by simp [h]), if_pos h]
  · rw [checkHandle_of_slot hk hsl, recordOf_afterEdges, hr]
  · rw [checkHandle_of_slot hk hsl, slotOf_afterEdges, recordOf_afterEdges]
    split
    · rfl
    · exact if_pos hg
  · rw [checkHandle_of_slot hk hsl, slotOf_afterEdges, recordOf_afterEdges, hr]
    have other : o.toNat ≠ 0 := fun e => h2 (BitVec.eq_of_toNat_eq e)
    exact (if_neg (not_not.mpr hg)).trans (if_pos ⟨h1, other⟩)
  · have check := checkHandle_of_handleNames (handleNames_afterEdges hn)
    simp only [List.mem_cons, List.not_mem_nil, or_false] at hrow
    rcases hrow with rfl | rfl | rfl
    · exact adjust _ (by simp only [adjustCmd, adjusted, check, hl]; rfl)
    · exact renew _ (by simp only [renewCmd, named, check, hl]; rfl)
    · exact absurd rfl hne

/-! ### RESERVE (R1, R6, R7) -/

/-- A list in ascending order gives, of what a search seeks, the least. -/
theorem find?_eq_some_of_least {α : Type} [LinearOrder α] {l : List α} {p : α → Bool} {a : α} (hl : l.Pairwise (· < ·)) (ha : a ∈ l)
    (hp : p a = true) (least : ∀ b ∈ l, b < a → p b = false) : l.find? p = some a := by
  induction l with
  | nil => cases ha
  | cons b l ih =>
    obtain ⟨hb, hl⟩ := List.pairwise_cons.mp hl
    rcases List.mem_cons.mp ha with rfl | ha
    · exact List.find?_cons_of_pos hp
    · rw [List.find?_cons_of_neg (by simp [least b (by simp) (hb a ha)])]
      exact ih hl ha fun c hc => least c (List.mem_cons_of_mem _ hc)

theorem hostSlots_sorted : hostSlots.Pairwise (· < ·) := by decide

theorem freeHostSlot_of_none {s : State} (h : ∀ j : Fin 24, j ≠ 0 → (recordOf s j).isSome = true) : freeHostSlot s = none := by
  rw [freeHostSlot, List.find?_eq_none]
  intro k hk
  simpa [Option.isSome_iff_ne_none] using h k ((mem_hostSlots k).mp hk)

theorem freeHostSlot_of_least {s : State} {k : Fin 24} (hk : k ≠ 0) (hr : recordOf s k = none)
    (h : ∀ j : Fin 24, j ≠ 0 → j < k → (recordOf s j).isSome = true) : freeHostSlot s = some k := by
  refine find?_eq_some_of_least hostSlots_sorted ((mem_hostSlots k).mpr hk) (by simp [hr]) fun j hj hlt => ?_
  simpa using h j ((mem_hostSlots j).mp hj) hlt

theorem kindOfByte_eq (b : Byte) : kindOfByte b = if b.toNat ≤ 1 then some (if b = 1 then .burst else .steady) else none := by
  revert b
  decide

/-- The fields of a RESERVE (R6, R172). -/
theorem reserveArgs_eq (o p kb d1 d0 l1 l0 b1 b0 w1 w0 : Byte) :
    reserveArgs [o, p, kb, d1, d0, l1, l0, b1, b0, w1, w0] =
      if reserveInRange o.toNat p.toNat kb.toNat (word2 d1 d0) (word2 l1 l0) (word2 b1 b0) (word2 w1 w0) then
        some ⟨o.toNat, p.toNat, if kb = 1 then .burst else .steady, word2 d1 d0, word2 l1 l0, word2 b1 b0, word2 w1 w0⟩
      else none := by
  rw [reserveArgs, kindOfByte_eq]
  simp only [unsignedOf_two]
  by_cases hk : kb.toNat ≤ 1
  · simp only [if_pos hk]
    refine ite_congr (propext ?_) (fun _ => rfl) (fun _ => rfl)
    rw [ReserveArgs.ok_iff]
    by_cases h1 : kb = 1
    · have one : kb.toNat = 1 := congrArg BitVec.toNat h1
      simp only [reserveInRange, if_pos h1, one, Bool.and_eq_true, decide_eq_true_eq, le_refl, reduceIte, and_true, and_assoc]
    · have zero : kb.toNat = 0 := by
        have : kb.toNat ≠ 1 := fun h => h1 (BitVec.toNat_inj.mp h)
        omega
      simp only [reserveInRange, if_neg h1, zero, Bool.and_eq_true, decide_eq_true_eq, beq_iff_eq, reduceCtorEq,
        reduceIte, Nat.zero_ne_one, Nat.zero_le, and_true, and_assoc]
  · rw [if_neg hk, if_neg]
    simp [reserveInRange, hk]

/-- Settles O20: the arguments by R6, the slot by the search of R1. -/
theorem reserveCreatesAPendingRecord : Obligations.ReserveCreatesAPendingRecord := by
  intro s o p kb d1 d0 l1 l0 b1 b0 w1 w0 hf row ok n r
  have reserve (u : Result) (h : reserveCmd [o, p, kb, d1, d0, l1, l0, b1, b0, w1, w0] (afterEdges s) = u) :
      exec row s = .next (answered u.st u.out u.payload) := next_commandFrame hf (by simp) h
  have args := reserveArgs_eq o p kb d1 d0 l1 l0 b1 b0 w1 w0
  refine ⟨fun hok => reserve (refuse (afterEdges s) .badArg) ?_, fun hok hfull => reserve (refuse (afterEdges s) .tableFull) ?_,
    fun hok k hk hr hl => reserve ⟨_, .done, _⟩ ?_⟩
  · rw [reserveCmd, args, if_neg (by simpa using hok)]
  · rw [reserveCmd, args, if_pos hok, freeHostSlot_of_none (s := afterEdges s) hfull]
  · have created : newRecord ⟨o.toNat, p.toNat, if kb = 1 then .burst else .steady, word2 d1 d0, word2 l1 l0, word2 b1 b0, word2 w1 w0⟩
        (nextStamp s.resv.arrivals) = r := by
      dsimp only [r]
      by_cases h1 : kb = 1
      · simp only [newRecord, if_pos h1]
        rfl
      · simp only [newRecord, if_neg h1]
        rfl
    rw [reserveCmd, args, if_pos hok, freeHostSlot_of_least (s := afterEdges s) hk hr hl]
    dsimp only
    rw [requestPass_eq, show (afterEdges s).resv.arrivals = s.resv.arrivals from rfl, created]
    rfl

end Sys2Proof.Machine
end

section
/-! The answers of the table: QUERY and COLLECT (1.7, 12.4). -/

namespace Sys2Proof.Machine

/-! ### QUERY (R12, R173) -/

theorem unsignedOf_byte (b : Byte) : unsignedOf [b] = b.toNat := by
  simp [unsignedOf]

theorem unsignedOf_ofNat {n : Nat} (h : n < 256) : unsignedOf [BitVec.ofNat 8 n] = n := by
  rw [unsignedOf_byte, BitVec.toNat_ofNat, Nat.mod_eq_of_lt h]

/-- The bits of a byte of eight flags. -/
theorem testBit_flags : ∀ b7 b6 b5 b4 b3 b2 b1 b0 : Bool,
    let n := unsignedOf [BitVec.ofNat 8 (b7.toNat * 128 + b6.toNat * 64 + b5.toNat * 32 + b4.toNat * 16 + b3.toNat * 8 + b2.toNat * 4 +
      b1.toNat * 2 + b0.toNat)]
    n.testBit 7 = b7 ∧ n.testBit 6 = b6 ∧ n.testBit 5 = b5 ∧ n.testBit 4 = b4 ∧ n.testBit 3 = b3 ∧ n.testBit 2 = b2 ∧
      n.testBit 1 = b1 ∧ n.testBit 0 = b0 := by
  decide

/-- The record answer reads back field by field, where the record is as the field table says (R173). -/
theorem fieldAt_recordBytes {g a : Nat} {k : Fin 24} {r : Record} (gen : Byte) (h : r.Fits g a k) (hg : g ≤ 65535) (ha : a ≤ 65535) :
    let p := recordBytes k gen r
    p.length = 30 ∧ fieldAt p 0 1 = k.val ∧ fieldAt p 1 1 = gen.toNat ∧ fieldAt p 2 1 = r.st.code ∧ fieldAt p 3 1 = r.st.causeCode ∧
      fieldAt p 4 1 = r.owner * 16 + r.prio ∧ fieldAt p 6 2 = r.draw ∧ fieldAt p 8 2 = r.pendDraw.getD 0 ∧
      fieldAt p 10 2 = r.lifeSet ∧ fieldAt p 12 4 = r.lifeRem.getD 0 ∧ fieldAt p 16 2 = r.burstSet ∧
      fieldAt p 18 2 = r.burstRem.getD 0 ∧ fieldAt p 20 2 = r.burstTot.getD 0 ∧ fieldAt p 22 2 = r.waitSet ∧
      fieldAt p 24 2 = r.waitRem.getD 0 ∧ fieldAt p 26 2 = r.arrival ∧ fieldAt p 28 2 = r.grantStamp.getD 0 := by
  intro p
  have field (j n v : Nat) (hp : (p.drop j).take n = bytesOf n v) (hv : v < 256 ^ n) : fieldAt p j n = v := by
    rw [fieldAt, hp, unsignedOf_bytesOf n v hv]
  have absent (o : Option Nat) (b : Nat) (ho : ∀ n, o = some n → n ≤ b) : o.getD 0 ≤ b := by
    cases o with
    | none => exact Nat.zero_le b
    | some n => exact ho n rfl
  have byte (j n : Nat) (hp : (p.drop j).take 1 = [BitVec.ofNat 8 n]) (hn : n < 256) : fieldAt p j 1 = n := by
    rw [fieldAt, hp, unsignedOf_ofNat hn]
  have owner : r.owner ≤ 15 := by
    have := h.slot
    split at this <;> omega
  have prio := h.prio
  have burst : r.burstSet ≤ 2000 := by
    have := h.burstSet
    split at this <;> omega
  have code : r.st.code < 256 := by cases r.st <;> simp [RecState.code]
  have cause : r.st.causeCode < 256 := by
    rcases r.st with _ | _ | c | c
    · decide
    · decide
    · cases c <;> decide
    · cases c <;> decide
  have pend := absent r.pendDraw 20000 fun n hn => (h.pendDraw n hn).2.2
  have life := absent r.lifeRem _ h.lifeRem_le
  have brem := absent r.burstRem _ h.burstRem_le
  have btot := absent r.burstTot _ h.burstTot_le
  have wait := absent r.waitRem _ h.waitRem_le
  have stamp := absent r.grantStamp g fun n hn => (h.stamp n hn).2
  have draw := h.draw
  have lifeSet := h.lifeSet
  have waitSet := h.waitSet
  have arrival := h.arrival
  have kept : fieldAt p 1 1 = gen.toNat := unsignedOf_byte gen
  have length : p.length = 30 := by
    simp only [p, recordBytes, List.length_append, List.length_cons, List.length_nil, length_bytesOf]
  exact ⟨length, byte 0 k.val rfl (by omega), kept, byte 2 r.st.code rfl code, byte 3 r.st.causeCode rfl cause,
    byte 4 (r.owner * 16 + r.prio) rfl (by omega), field 6 2 r.draw rfl (by omega),
    field 8 2 (r.pendDraw.getD 0) rfl (by omega), field 10 2 r.lifeSet rfl (by omega), field 12 4 (r.lifeRem.getD 0) rfl (by omega),
    field 16 2 r.burstSet rfl (by omega), field 18 2 (r.burstRem.getD 0) rfl (by omega),
    field 20 2 (r.burstTot.getD 0) rfl (by omega), field 22 2 r.waitSet rfl (by omega), field 24 2 (r.waitRem.getD 0) rfl (by omega),
    field 26 2 r.arrival rfl (by omega), field 28 2 (r.grantStamp.getD 0) rfl (by omega)⟩

/-- Settles O24: the answer reads back by its layout. -/
theorem queryReportsTheSlot : Obligations.QueryReportsTheSlot := by
  intro s b hf
  have query (r : Result) (h : queryCmd [b] (afterEdges s) = r) : exec (.query [b]) s = .next (answered r.st r.out r.payload) :=
    next_commandFrame hf (by simp) h
  refine ⟨fun hb => query (refuse (afterEdges s) .badHandle) ?_, fun k hk => ?_⟩
  · rw [queryCmd, dif_neg (Nat.not_lt.mpr hb)]
  have slot : (⟨b.toNat, hk ▸ k.isLt⟩ : Fin 24) = k := Fin.ext hk
  have byte : BitVec.ofNat 8 k.val = b := by rw [← hk, BitVec.ofNat_toNat, BitVec.setWidth_eq]
  have answer : queryCmd [b] (afterEdges s) = ⟨afterEdges s, .done, slotBytes (afterEdges s) k⟩ := by
    rw [queryCmd, dif_pos (hk ▸ k.isLt), slot]
  refine ⟨fun hr => ?_, fun r hr hs ha hg => ⟨recordBytes k (slotOf s k).gen r, ?_, ?_⟩⟩
  · refine query ⟨_, .done, _⟩ ?_
    rw [answer, slotBytes, recordOf_afterEdges, slotOf_afterEdges, hr, byte]
    rfl
  · refine query ⟨_, .done, _⟩ ?_
    rw [answer, slotBytes, recordOf_afterEdges, slotOf_afterEdges, hr]
    rfl
  · rw [slotOk, hr] at hs
    have fits := recordOk_iff.mp hs
    obtain ⟨h0, h1, h2, h3, h4, h5, h6, h7, h8, h9, h10, h11, h12, h13, h14, h15, h16⟩ := fieldAt_recordBytes (slotOf s k).gen fits hg ha
    have flags := testBit_flags (decide (r.kind = .burst)) r.mark r.pendDraw.isSome r.lifeRem.isSome r.burstRem.isSome r.waitRem.isSome
      r.grantStamp.isSome (decide (r.dir = some .bToA))
    have presence : fieldAt (recordBytes k (slotOf s k).gen r) 5 1 = unsignedOf [presenceByte r] := rfl
    have kind : (r.kind == .burst) = decide (r.kind = .burst) := by cases r.kind <;> rfl
    have dir : (r.dir == some .bToA) = decide (r.dir = some .bToA) := by rcases r.dir with _ | d <;> [rfl; (cases d <;> rfl)]
    rw [presence, kind, dir]
    exact ⟨h0, h1, h2, h3.trans (by cases r.st <;> rfl),
      h4.trans (by rcases r.st with _ | _ | c | c <;> [rfl; rfl; (cases c <;> rfl); (cases c <;> rfl)]),
      h5, h6, h7, h8, h9, h10, h11, h12, h13, h14, h15, h16, flags⟩

/-! ### COLLECT (R13, R173) -/

/-- The slots COLLECT looks through are those of the table but slot 0. -/
theorem markedSlots_eq (s : State) :
    markedSlots s = (List.finRange 24).filter fun k => k ≠ 0 ∧ (recordOf s k).any fun r => r.mark := by
  have all : List.finRange 24 = 0 :: hostSlots := by decide
  rw [all, List.filter_cons_of_neg (by simp), markedSlots]
  refine List.filter_congr fun k hk => ?_
  simp [(mem_hostSlots k).mp hk]

/-- Clearing marks over a list of slots clears those of the list. -/
theorem recordOf_foldl_clearMark (ks : List (Fin 24)) (s : State) (j : Fin 24) :
    recordOf (ks.foldl (fun t k => clearMark k t) s) j =
      (recordOf s j).map fun r => if j ∈ ks then { r with mark := false } else r := by
  induction ks generalizing s with
  | nil => simp
  | cons k ks ih =>
    have one : recordOf (clearMark k s) j = (recordOf s j).map fun r => if j = k then { r with mark := false } else r := by
      rw [clearMark]
      cases hr : recordOf s k with
      | none =>
        by_cases hj : j = k
        · simp [hj, hr]
        · simp [hj]
      | some r =>
        rw [recordOf_putRecord]
        by_cases hj : j = k
        · simp [hj, hr]
        · simp [hj]
    rw [List.foldl_cons, ih, one, Option.map_map]
    refine congrArg (Option.map · _) (funext fun r => ?_)
    by_cases hj : j = k <;> by_cases hks : j ∈ ks <;> simp [hj, hks]

/-- Clearing marks moves the records of the table alone. -/
theorem foldl_clearMark_frame (ks : List (Fin 24)) (s : State) :
    ∃ slots, ks.foldl (fun t k => clearMark k t) s = { s with resv := { s.resv with slots := slots } } ∧
      ∀ j, (slotOf (ks.foldl (fun t k => clearMark k t) s) j).gen = (slotOf s j).gen := by
  induction ks generalizing s with
  | nil => exact ⟨s.resv.slots, rfl, fun _ => rfl⟩
  | cons k ks ih =>
    obtain ⟨slots, heq, hgen⟩ := ih (clearMark k s)
    rw [List.foldl_cons, heq] at *
    have one : (∃ slots', clearMark k s = { s with resv := { s.resv with slots := slots' } }) ∧
        ∀ j, (slotOf (clearMark k s) j).gen = (slotOf s j).gen := by
      rw [clearMark]
      split
      · exact ⟨⟨s.resv.slots, rfl⟩, fun _ => rfl⟩
      · exact ⟨⟨_, rfl⟩, fun j => gen_putRecord k j _ s⟩
    obtain ⟨⟨slots', hone⟩, hgen'⟩ := one
    refine ⟨slots, by rw [hone], fun j => (hgen j).trans (hgen' j)⟩

/-- Entries of three bytes, side by side. -/
theorem getElem?_flatMap_three {α β : Type} {f : α → List β} {l : List α} (hf : ∀ a ∈ l, (f a).length = 3) {n i : Nat} (hi : i < 3)
    {a : α} (ha : l[n]? = some a) : (l.flatMap f)[3 * n + i]? = (f a)[i]? := by
  induction l generalizing n with
  | nil => simp at ha
  | cons b l ih =>
    have hb := hf b (by simp)
    rw [List.flatMap_cons]
    cases n with
    | zero =>
      cases ha
      rw [Nat.mul_zero, Nat.zero_add, List.getElem?_append_left (by omega)]
    | succ n =>
      rw [List.getElem?_append_right (by omega), hb, show 3 * (n + 1) + i - 3 = 3 * n + i by omega]
      exact ih (fun a h => hf a (List.mem_cons_of_mem _ h)) ha

theorem length_flatMap_three {α β : Type} {f : α → List β} {l : List α} (hf : ∀ a ∈ l, (f a).length = 3) :
    (l.flatMap f).length = 3 * l.length := by
  induction l with
  | nil => rfl
  | cons b l ih =>
    rw [List.flatMap_cons, List.length_append, hf b (by simp), ih fun a h => hf a (List.mem_cons_of_mem _ h), List.length_cons]
    omega

/-- Settles O25: the entries by their slots, and the marks by the fold that clears them. -/
theorem collectReportsAndClearsMarks : Obligations.CollectReportsAndClearsMarks := by
  intro s hf marked
  have same : markedSlots (afterEdges s) = marked := markedSlots_eq (afterEdges s)
  have held : ∀ k ∈ marked, ∃ r, recordOf s k = some r := by
    intro k hk
    have := (List.mem_filter.mp hk).2
    cases hr : recordOf s k with
    | none => simp [hr] at this
    | some r => exact ⟨r, rfl⟩
  have entry {k : Fin 24} {r : Record} (hr : recordOf s k = some r) :
      collectEntry (afterEdges s) k = [BitVec.ofNat 8 k.val, (slotOf s k).gen, BitVec.ofNat 8 (r.st.code * 16 + r.st.causeCode)] := by
    rw [collectEntry, recordOf_afterEdges, hr, slotOf_afterEdges]
  have three : ∀ k ∈ marked.take 8, (collectEntry (afterEdges s) k).length = 3 := by
    intro k hk
    obtain ⟨r, hr⟩ := held k (List.mem_of_mem_take hk)
    rw [entry hr]
    rfl
  obtain ⟨slots, heq, hgen⟩ := foldl_clearMark_frame (marked.take 8) (afterEdges s)
  refine ⟨(marked.take 8).foldl (fun t k => clearMark k t) (afterEdges s), (marked.take 8).flatMap (collectEntry (afterEdges s)),
    ?_, ?_, fun n k hn hk => ?_, ?_, fun k => ⟨hgen k, recordOf_foldl_clearMark _ _ k⟩⟩
  · refine next_commandFrame (r := ⟨_, .done, _⟩) hf (by simp) ?_
    have count : (decide (8 < marked.length)).toNat * 128 + (marked.take 8).length =
        (if 8 < marked.length then 128 else 0) + min 8 marked.length := by
      rw [List.length_take]
      by_cases h : 8 < marked.length <;> simp [h]
    rw [collectCmd, same]
    rw [count]
  · rw [length_flatMap_three three, List.length_take]
  · have hk' : (marked.take 8)[n]? = some k := by rw [List.getElem?_take_of_lt hn, hk]
    obtain ⟨r, hr⟩ := held k (List.mem_of_getElem? hk)
    have part (i : Nat) (hi : i < 3) := getElem?_flatMap_three three hi hk'
    refine ⟨(part 0 (by omega)).trans (by rw [entry hr]; rfl), (part 1 (by omega)).trans (by rw [entry hr]; rfl), fun r' hr' =>
      (part 2 (by omega)).trans ?_⟩
    rw [entry hr']
    rcases r'.st with _ | _ | c | c <;> [rfl; rfl; (cases c <;> rfl); (cases c <;> rfl)]
  · rw [heq]
    rfl

end Sys2Proof.Machine
end

section
/-! What every host command does where it is refused, and the answers as they leave on LDO (10.2, 10.3, 12.1 to 12.3). -/

namespace Sys2Proof.Machine

/-! ### Carried out or refused (R157, R158) -/

/-- What a command answers with: it is carried out, or it is refused and changes nothing. -/
def Answers (s : State) (r : Result) : Prop := r.out.carriedOut = true ∨ ∃ out, r = refuse s out

theorem Answers.refused (s : State) (out : Outc) : Answers s (refuse s out) := .inr ⟨out, rfl⟩

theorem Answers.done (s t : State) (payload : List Byte) : Answers s ⟨t, .done, payload⟩ := .inl rfl

theorem Answers.clamped (s t : State) (c : Prop) [Decidable c] (payload : List Byte) :
    Answers s ⟨t, if c then .done else .doneClamped, payload⟩ := by
  refine .inl ?_
  dsimp only
  split <;> rfl

theorem answers_nopCmd (args : List Byte) (s : State) : Answers s (nopCmd args s) := by
  unfold nopCmd
  split
  · exact .done ..
  · exact .refused ..

theorem answers_reserveCmd (args : List Byte) (s : State) : Answers s (reserveCmd args s) := by
  unfold reserveCmd
  split
  · exact .refused ..
  · split
    · exact .refused ..
    · exact .done ..

theorem answers_adjustCmd (args : List Byte) (s : State) : Answers s (adjustCmd args s) := by
  unfold adjustCmd
  split
  · exact .refused ..
  · split
    · exact .refused ..
    · split
      · exact .done ..
      · exact .refused ..

theorem answers_renewCmd (args : List Byte) (s : State) : Answers s (renewCmd args s) := by
  unfold renewCmd
  split
  · exact .refused ..
  · split
    · exact .refused ..
    · split
      · exact .done ..
      · exact .refused ..

theorem answers_releaseCmd (args : List Byte) (s : State) : Answers s (releaseCmd args s) := by
  unfold releaseCmd
  split
  · exact .refused ..
  · split
    · exact .refused ..
    · exact .done ..

theorem answers_queryCmd (args : List Byte) (s : State) : Answers s (queryCmd args s) := by
  unfold queryCmd
  split
  · split
    · exact .done ..
    · exact .refused ..
  · exact .refused ..

theorem answers_collectCmd (args : List Byte) (s : State) : Answers s (collectCmd args s) := by
  unfold collectCmd
  split
  · exact .done ..
  · exact .refused ..

theorem answers_offersCmd (args : List Byte) (s : State) : Answers s (offersCmd args s) := by
  unfold offersCmd
  split
  · exact .refused ..
  · dsimp only
    split
    · exact .refused ..
    · split
      · exact .clamped ..
      · split
        · exact .clamped ..
        · exact .refused ..

theorem answers_appliedCmd (args : List Byte) (s : State) : Answers s (appliedCmd args s) := by
  unfold appliedCmd
  split
  · exact .refused ..
  · dsimp only
    split
    · exact .done ..
    · exact .refused ..

theorem answers_isolateCmd (args : List Byte) (s : State) : Answers s (isolateCmd args s) := by
  unfold isolateCmd
  split
  · exact .refused ..
  · dsimp only
    split
    · exact .refused ..
    · split
      · split
        · exact .refused ..
        · split
          · exact .done ..
          · exact .done ..
      · split
        · exact .done ..
        · exact .done ..

theorem answers_setLimitCmd (args : List Byte) (s : State) : Answers s (setLimitCmd args s) := by
  unfold setLimitCmd
  split
  · exact .refused ..
  · split
    · exact .refused ..
    · refine .inl ?_
      dsimp only
      split <;> rfl

theorem answers_readCellCmd (args : List Byte) (s : State) : Answers s (readCellCmd args s) := by
  unfold readCellCmd
  split
  · exact .refused ..
  · exact .done ..

theorem answers_readInputCmd (args : List Byte) (s : State) : Answers s (readInputCmd args s) := by
  unfold readInputCmd
  split
  · exact .refused ..
  · exact .done ..

theorem answers_isolateCellCmd (args : List Byte) (s : State) : Answers s (isolateCellCmd args s) := by
  unfold isolateCellCmd
  split
  · exact .refused ..
  · exact .done ..

theorem answers_clearFaultCmd (args : List Byte) (s : State) : Answers s (clearFaultCmd args s) := by
  unfold clearFaultCmd
  split
  · exact .refused ..
  · exact .done ..

theorem answers_getLimitCmd (args : List Byte) (s : State) : Answers s (getLimitCmd args s) := by
  unfold getLimitCmd
  split
  · exact .refused ..
  · exact .done ..

theorem answers_setMasksCmd (args : List Byte) (s : State) : Answers s (setMasksCmd args s) := by
  unfold setMasksCmd
  split
  · exact .refused ..
  · exact .done ..

/-- A command without arguments. -/
theorem answers_of_nil {args : List Byte} {s : State} {r : Result} (h : Answers s r) :
    Answers s (match args with | [] => r | _ :: _ => refuse s .badArg) := by
  split
  · exact h
  · exact .refused ..

theorem answers_readBudgetCmd (args : List Byte) (s : State) : Answers s (readBudgetCmd args s) := answers_of_nil (.done ..)

theorem answers_lockLimitsCmd (args : List Byte) (s : State) : Answers s (lockLimitsCmd args s) := answers_of_nil (.done ..)

theorem answers_readConditionsCmd (args : List Byte) (s : State) : Answers s (readConditionsCmd args s) := answers_of_nil (.done ..)

theorem answers_readCountersCmd (args : List Byte) (s : State) : Answers s (readCountersCmd args s) := answers_of_nil (.done ..)

/-! ### Argument lists that no layout admits (R170, R172) -/

theorem cellOfByte_none {b : Byte} (h : 1 < b.toNat) : cellOfByte b = none := by
  unfold cellOfByte
  split
  · omega
  · omega
  · rfl

theorem portOfByte_none {b : Byte} (h : 1 < b.toNat) : portOfByte b = none := by
  unfold portOfByte
  split
  · omega
  · omega
  · rfl

theorem onOffOfByte_none {b : Byte} (h : 1 < b.toNat) : onOffOfByte b = none := by
  unfold onOffOfByte
  split
  · omega
  · omega
  · rfl

theorem portOnOff_none {b o : Byte} (h : portOfByte b = none ∨ onOffOfByte o = none) : portOnOff [b, o] = none := by
  unfold portOnOff
  rcases h with h | h <;> split <;> simp_all

theorem cellOnOff_none {b o : Byte} (h : cellOfByte b = none ∨ onOffOfByte o = none) : cellOnOff [b, o] = none := by
  unfold cellOnOff
  rcases h with h | h <;> split <;> simp_all

theorem length_of_reserveArgs {args : List Byte} (h : args.length ≠ 11) : reserveArgs args = none := by
  unfold reserveArgs
  split
  · exact absurd rfl h
  · rfl

theorem length_of_handleArgs {args : List Byte} (h : args.length ≠ 3) : handleArgs args = none := by
  unfold handleArgs
  split
  · exact absurd rfl h
  · rfl

theorem length_of_adjustArgs {args : List Byte} (h : args.length ≠ 5) : adjustArgs args = none := by
  unfold adjustArgs
  split
  · exact absurd rfl h
  · rfl

theorem length_of_cellArg {args : List Byte} (h : args.length ≠ 1) : cellArg args = none := by
  unfold cellArg
  split
  · exact absurd rfl h
  · rfl

theorem length_of_portArg {args : List Byte} (h : args.length ≠ 1) : portArg args = none := by
  unfold portArg
  split
  · exact absurd rfl h
  · rfl

theorem length_of_cellOnOff {args : List Byte} (h : args.length ≠ 2) : cellOnOff args = none := by
  unfold cellOnOff
  split
  · exact absurd rfl h
  · rfl

theorem length_of_portOnOff {args : List Byte} (h : args.length ≠ 2) : portOnOff args = none := by
  unfold portOnOff
  split
  · exact absurd rfl h
  · rfl

theorem length_of_setLimitArgs {args : List Byte} (h : args.length ≠ 5) (h8 : args.length ≠ 8) : setLimitArgs args = none := by
  unfold setLimitArgs
  split
  · exact absurd rfl h
  · exact absurd rfl h8
  · rfl

theorem length_of_getLimitArgs {args : List Byte} (h : args.length ≠ 2) : getLimitArgs args = none := by
  unfold getLimitArgs
  split
  · exact absurd rfl h
  · rfl

theorem length_of_setMasksArgs {args : List Byte} (h : args.length ≠ 5) : setMasksArgs args = none := by
  unfold setMasksArgs
  split
  · exact absurd rfl h
  · rfl

/-- Entries fill whole fives of bytes. -/
theorem length_of_offerList : ∀ bs : List Byte, bs.length % 5 ≠ 0 → offerList bs = none
  | [], h => absurd rfl h
  | [_], _ | [_, _], _ | [_, _, _], _ | [_, _, _, _], _ => rfl
  | b4 :: b3 :: b2 :: b1 :: b0 :: rest, h => by
    have short : rest.length % 5 ≠ 0 := by
      simp only [List.length_cons] at h
      omega
    rw [offerList_cons, length_of_offerList rest short]
    split
    · next h => cases h
    · rfl

theorem offersArgs_of_offerList {p : Byte} {bs : List Byte} (h : offerList bs = none) : offersArgs (p :: bs) = none := by
  cases bs with
  | nil => rfl
  | cons b rest =>
    rw [offersArgs, h]
    split
    · next h => cases h
    · rfl

theorem offersArgs_of_portOfByte {p : Byte} {bs : List Byte} (h : portOfByte p = none) : offersArgs (p :: bs) = none := by
  cases bs with
  | nil => rfl
  | cons b rest =>
    rw [offersArgs, h]

theorem length_of_offersArgs {args : List Byte} (hn : args.length ≤ 32) (h : args.length ∉ [6, 11, 16, 21, 26, 31]) :
    offersArgs args = none := by
  match args with
  | [] => rfl
  | [_] => rfl
  | p :: b :: rest =>
    refine offersArgs_of_offerList (length_of_offerList _ ?_)
    simp only [List.length_cons, List.mem_cons, List.not_mem_nil] at h hn ⊢
    omega

/-- An entry of unknown type spoils the list (R134, R172). -/
theorem offerOf_none {type : Byte} (b3 b2 b1 b0 : Byte) (h : 2 ≤ type.toNat / 64) :
    offerOf (unsignedOf [type, b3, b2, b1, b0]) = none := by
  have figure : unsignedOf [type, b3, b2, b1, b0] / 2 ^ 38 % 4 = type.toNat / 64 := by
    simp only [unsignedOf, List.length_cons, List.length_nil]
    omega
  rw [offerOf, figure]
  split
  · omega
  · omega
  · rfl

theorem offerList_of_unknown {type : Byte} (b3 b2 b1 b0 : Byte) (rest : List Byte) (h : 2 ≤ type.toNat / 64) :
    ∀ before : List Byte, before.length % 5 = 0 → offerList (before ++ type :: b3 :: b2 :: b1 :: b0 :: rest) = none
  | [], _ => by
    rw [List.nil_append, offerList_cons, offerOf_none _ _ _ _ h]
  | [_], hb | [_, _], hb | [_, _, _], hb | [_, _, _, _], hb => by simp at hb
  | c4 :: c3 :: c2 :: c1 :: c0 :: before, hb => by
    have short : before.length % 5 = 0 := by
      simp only [List.length_cons] at hb
      omega
    simp only [List.cons_append]
    rw [offerList_cons, offerList_of_unknown b3 b2 b1 b0 rest h before short]
    split
    · next h => cases h
    · rfl

/-! ### The statement -/

/-- The commands that only read their arguments by their length. -/
theorem command_of_nonempty {args : List Byte} (h : args.length ≠ 0) (s : State) :
    nopCmd args s = refuse s .badArg ∧ collectCmd args s = refuse s .badArg ∧ readBudgetCmd args s = refuse s .badArg ∧
      lockLimitsCmd args s = refuse s .badArg ∧ readConditionsCmd args s = refuse s .badArg ∧ readCountersCmd args s = refuse s .badArg := by
  cases args with
  | nil => exact absurd rfl h
  | cons b args => exact ⟨rfl, rfl, rfl, rfl, rfl, rfl⟩

/-- A row whose command refuses its frame changes nothing (R158). -/
theorem answersOnly_of_refuse {cmd : List Byte → State → Result} {row : Instr} {args : List Byte} {s : State} {out : Outc}
    (hrow : exec row s = .next (commandFrame (runCommand cmd) args s)) (h : takesFrame s) (hn : args.length ≤ 32)
    (hr : cmd args (afterEdges s) = refuse (afterEdges s) out) : answersOnly row s out [] :=
  hrow.trans (next_commandFrame h hn hr)

/-- Settles O18: refusals by `Answers`, and each layout by what its arguments must be. -/
theorem refusedCommandChangesNothing : Obligations.RefusedCommandChangesNothing := by
  have inFrame {cmd : List Byte → State → Result} (hcmd : ∀ args s, Answers s (cmd args s)) {row : Instr} {args : List Byte} {s : State}
      (hrow : exec row s = .next (commandFrame (runCommand cmd) args s)) (h : takesFrame s) (hn : args.length ≤ 32) :
      ∃ (u : State) (out : Outc) (payload : List Byte), exec row s = .next (answered u out payload) ∧
        (out.carriedOut = false → u = afterEdges s ∧ payload = []) := by
    refine ⟨_, _, _, hrow.trans (next_commandFrame h hn rfl), fun hc => ?_⟩
    rcases hcmd args (afterEdges s) with hd | ⟨out, hr⟩
    · rw [hd] at hc
      cases hc
    · rw [hr]
      exact ⟨rfl, rfl⟩
  refine ⟨fun c hc args s hn hf => ?_, fun c hc args s hn hlen hf => ?_, fun s b e hf hb => ⟨fun row hrow => ?_, fun entries he => ?_⟩,
    fun s port type b3 b2 b1 b0 before rest hf ht hb hlen => ?_⟩
  · simp only [hostCommands, List.mem_cons, List.not_mem_nil, or_false] at hc
    rcases hc with rfl | rfl | rfl | rfl | rfl | rfl | rfl | rfl | rfl | rfl | rfl | rfl | rfl | rfl | rfl | rfl | rfl | rfl | rfl | rfl | rfl
    · exact inFrame answers_nopCmd rfl hf hn
    · exact inFrame answers_reserveCmd rfl hf hn
    · exact inFrame answers_adjustCmd rfl hf hn
    · exact inFrame answers_renewCmd rfl hf hn
    · exact inFrame answers_releaseCmd rfl hf hn
    · exact inFrame answers_queryCmd rfl hf hn
    · exact inFrame answers_collectCmd rfl hf hn
    · exact inFrame answers_readBudgetCmd rfl hf hn
    · exact inFrame answers_readCellCmd rfl hf hn
    · exact inFrame answers_readInputCmd rfl hf hn
    · exact inFrame answers_offersCmd rfl hf hn
    · exact inFrame answers_appliedCmd rfl hf hn
    · exact inFrame answers_isolateCmd rfl hf hn
    · exact inFrame answers_isolateCellCmd rfl hf hn
    · exact inFrame answers_clearFaultCmd rfl hf hn
    · exact inFrame answers_setLimitCmd rfl hf hn
    · exact inFrame answers_getLimitCmd rfl hf hn
    · exact inFrame answers_lockLimitsCmd rfl hf hn
    · exact inFrame answers_readConditionsCmd rfl hf hn
    · exact inFrame answers_setMasksCmd rfl hf hn
    · exact inFrame answers_readCountersCmd rfl hf hn
  · have refused {cmd : List Byte → State → Result} {row : Instr} (hrow : exec row s = .next (commandFrame (runCommand cmd) args s))
        (hr : cmd args (afterEdges s) = refuse (afterEdges s) .badArg) : answersOnly row s .badArg [] :=
      answersOnly_of_refuse hrow hf hn hr
    have nonempty (h : args.length ≠ 0) := command_of_nonempty h (afterEdges s)
    simp only [commandLengths, List.mem_cons, List.not_mem_nil, or_false] at hc
    rcases hc with rfl | rfl | rfl | rfl | rfl | rfl | rfl | rfl | rfl | rfl | rfl | rfl | rfl | rfl | rfl | rfl | rfl | rfl | rfl | rfl | rfl | rfl <;>
      simp only [List.mem_cons, List.not_mem_nil, or_false, not_or] at hlen
    · exact refused (cmd := nopCmd) rfl (nonempty hlen).1
    · exact refused (cmd := reserveCmd) rfl (by rw [reserveCmd, length_of_reserveArgs hlen])
    · exact refused (cmd := adjustCmd) rfl (by rw [adjustCmd, length_of_adjustArgs hlen])
    · exact refused (cmd := renewCmd) rfl (by rw [renewCmd, length_of_handleArgs hlen])
    · exact refused (cmd := releaseCmd) rfl (by rw [releaseCmd, length_of_handleArgs hlen])
    · refine refused (cmd := queryCmd) rfl ?_
      unfold queryCmd
      split
      · exact absurd rfl hlen
      · rfl
    · exact refused (cmd := collectCmd) rfl (nonempty hlen).2.1
    · exact refused (cmd := readBudgetCmd) rfl (nonempty hlen).2.2.1
    · exact refused (cmd := readCellCmd) rfl (by rw [readCellCmd, length_of_cellArg hlen])
    · exact refused (cmd := readInputCmd) rfl (by rw [readInputCmd, length_of_portArg hlen])
    · refine refused (cmd := offersCmd) rfl ?_
      rw [offersCmd, length_of_offersArgs hn (by simpa using hlen)]
    · exact refused (cmd := appliedCmd) rfl (by rw [appliedCmd, length_of_portArg hlen])
    · exact refused (cmd := isolateCmd) rfl (by rw [isolateCmd, length_of_portOnOff hlen])
    · exact refused (cmd := isolateCellCmd) rfl (by rw [isolateCellCmd, length_of_cellOnOff hlen])
    · exact refused (cmd := clearFaultCmd) rfl (by rw [clearFaultCmd, length_of_cellArg hlen])
    · exact refused (cmd := setLimitCmd) rfl (by rw [setLimitCmd, length_of_setLimitArgs hlen.1 hlen.2])
    · exact refused (cmd := getLimitCmd) rfl (by rw [getLimitCmd, length_of_getLimitArgs hlen])
    · exact refused (cmd := lockLimitsCmd) rfl (nonempty hlen).2.2.2.1
    · exact refused (cmd := readConditionsCmd) rfl (nonempty hlen).2.2.2.2.1
    · exact refused (cmd := setMasksCmd) rfl (by rw [setMasksCmd, length_of_setMasksArgs hlen])
    · exact refused (cmd := readCountersCmd) rfl (nonempty hlen).2.2.2.2.2
    · have row : exec (.reset args) s = .next (commandFrame runReset args s) := rfl
      refine row.trans (congrArg _ ((commandFrame_taken hf hn).trans ?_))
      cases args with
      | nil => exact absurd rfl hlen
      | cons b rest => rfl
  · have refused {cmd : List Byte → State → Result} {args : List Byte}
        (hrow : exec row s = .next (commandFrame (runCommand cmd) args s)) (hn : args.length ≤ 32)
        (hr : cmd args (afterEdges s) = refuse (afterEdges s) .badArg) : answersOnly row s .badArg [] :=
      answersOnly_of_refuse hrow hf hn hr
    have cell := cellOfByte_none hb
    have port := portOfByte_none hb
    have onOff := onOffOfByte_none hb
    simp only [List.mem_cons, List.not_mem_nil, or_false] at hrow
    rcases hrow with rfl | rfl | rfl | rfl | rfl | rfl | rfl | rfl
    · exact refused (cmd := readCellCmd) rfl (by simp) (by rw [readCellCmd, cellArg, cell])
    · exact refused (cmd := readInputCmd) rfl (by simp) (by rw [readInputCmd, portArg, port])
    · exact refused (cmd := appliedCmd) rfl (by simp) (by rw [appliedCmd, portArg, port])
    · exact refused (cmd := clearFaultCmd) rfl (by simp) (by rw [clearFaultCmd, cellArg, cell])
    · exact refused (cmd := isolateCmd) rfl (by simp) (by rw [isolateCmd, portOnOff_none (.inl port)])
    · exact refused (cmd := isolateCmd) rfl (by simp) (by rw [isolateCmd, portOnOff_none (.inr onOff)])
    · exact refused (cmd := isolateCellCmd) rfl (by simp) (by rw [isolateCellCmd, cellOnOff_none (.inl cell)])
    · exact refused (cmd := isolateCellCmd) rfl (by simp) (by rw [isolateCellCmd, cellOnOff_none (.inr onOff)])
  · refine answersOnly_of_refuse (cmd := offersCmd) rfl hf (by simp; omega) ?_
    rw [offersCmd, offersArgs_of_portOfByte (portOfByte_none hb)]
  · refine answersOnly_of_refuse (cmd := offersCmd) (args := port :: (before ++ type :: b3 :: b2 :: b1 :: b0 :: rest)) rfl hf
      (by simp; omega) ?_
    rw [offersCmd, offersArgs_of_offerList (offerList_of_unknown b3 b2 b1 b0 rest ht before hb)]

/-! ### The status byte and the answer on LDO (R158, R165, R170, R171) -/

theorem status_bits : ∀ (a l p e : Bool) (q : Fin 16),
    let b : Byte := BitVec.ofNat 8 (a.toNat * 128 + l.toNat * 64 + p.toNat * 32 + e.toNat * 16 + q.val)
    b.getLsbD 7 = a ∧ b.getLsbD 6 = l ∧ b.getLsbD 5 = p ∧ b.getLsbD 4 = e ∧ b.toNat % 16 = q.val := by
  decide

theorem equalizing_iff (s : State) : equalizing s = true ↔ ∃ r, recordOf s 0 = some r ∧ r.st = .granted := by
  change (match recordOf s 0 with | some r => r.st == .granted | none => false) = true ↔ _
  cases recordOf s 0 <;> simp

theorem anyMark_iff (s : State) : anyMark s.resv = true ↔ ∃ k r, recordOf s k = some r ∧ r.mark = true := by
  simp only [anyMark, List.any_eq_true, Option.any_eq_true, Vector.mem_toList_iff, Vector.mem_iff_getElem]
  constructor
  · rintro ⟨sl, ⟨i, hi, rfl⟩, r, hr, hm⟩
    exact ⟨⟨i, hi⟩, r, hr, hm⟩
  · rintro ⟨k, r, hr, hm⟩
    exact ⟨_, ⟨k.val, k.isLt, rfl⟩, r, hr, hm⟩

/-- An unmasked latched bit (R165). -/
theorem unmasked_iff (f m : BitVec 26) : (f &&& ~~~m) ≠ 0#26 ↔ ∃ i : Fin 26, f.getLsbD i = true ∧ m.getLsbD i = false := by
  constructor
  · intro h
    by_contra hn
    refine h (BitVec.eq_of_getLsbD_eq fun i hi => ?_)
    have := not_exists.mp hn ⟨i, hi⟩
    simp only [BitVec.getLsbD_and, BitVec.getLsbD_not, hi, decide_true, Bool.true_and, BitVec.getLsbD_zero]
    cases hf : f.getLsbD i <;> cases hm : m.getLsbD i <;> simp_all
  · rintro ⟨i, hf, hm⟩ h
    have bit : (f &&& ~~~m).getLsbD i = false := by
      rw [h]
      exact BitVec.getLsbD_zero
    rw [BitVec.getLsbD_and, BitVec.getLsbD_not, hf, hm] at bit
    simp at bit

theorem attnActive_iff (s : State) : attnActive s = true ↔ s.cond.master = true ∧
    ((∃ i : Fin 26, s.cond.latched.getLsbD i = true ∧ s.cond.masks.getLsbD i = false) ∨
      (s.cond.recordAttn = true ∧ ∃ k r, recordOf s k = some r ∧ r.mark = true)) := by
  rw [attnActive, Bool.and_eq_true, Bool.or_eq_true, Bool.and_eq_true, bne_iff_ne, unmasked_iff, anyMark_iff]

/-- One shift of the check, on byte values (R170). -/
def shiftValue (r : Nat) : Nat := if r < 128 then r * 2 else (r * 2 - 256) ^^^ 7

theorem toNat_crcShift : ∀ r : Byte, (crcShift r).toNat = shiftValue r.toNat := by
  decide

/-- The check as worked on byte values (R170). -/
theorem toNat_crc8 (bs : List Byte) : (crc8 bs).toNat = checkOf bs := by
  have range : List.range 8 = [0, 1, 2, 3, 4, 5, 6, 7] := rfl
  have byte (r b : Byte) : (crcByte r b).toNat = (List.range 8).foldl (fun r _ => shiftValue r) (r.toNat ^^^ b.toNat) := by
    rw [range]
    simp only [crcByte, toNat_crcShift, BitVec.toNat_xor, List.foldl_cons, List.foldl_nil]
  have fold (r : Byte) : (bs.foldl crcByte r).toNat =
      bs.foldl (fun r b => (List.range 8).foldl (fun r _ => shiftValue r) (r ^^^ b.toNat)) r.toNat := by
    induction bs generalizing r with
    | nil => rfl
    | cons b bs ih => rw [List.foldl_cons, List.foldl_cons, ih, byte]
  exact fold 0xFF#8

theorem getElem?_bitsOf (b : Byte) {k : Nat} (hk : k < 8) : (bitsOf 8 b.toNat)[k]? = some (b.getLsbD (7 - k)) := by
  have bits : bitsOf 8 b.toNat = [b.getLsbD 7, b.getLsbD 6, b.getLsbD 5, b.getLsbD 4, b.getLsbD 3, b.getLsbD 2, b.getLsbD 1, b.getLsbD 0] := by
    simp only [bitsOf, BitVec.testBit_toNat]
  rw [bits]
  interval_cases k <;> rfl

/-- The bits of a list of bytes, most significant bit first (R170). -/
theorem getElem?_bitsOfBytes (bs : List Byte) (k : Nat) : (bitsOfBytes bs)[k]? = (bs[k / 8]?).map fun b => b.getLsbD (7 - k % 8) := by
  induction bs generalizing k with
  | nil => simp [bitsOfBytes]
  | cons b bs ih =>
    have cons : bitsOfBytes (b :: bs) = bitsOf 8 b.toNat ++ bitsOfBytes bs := rfl
    have long : (bitsOf 8 b.toNat).length = 8 := rfl
    rw [cons]
    by_cases hk : k < 8
    · rw [List.getElem?_append_left (by omega), getElem?_bitsOf b hk, Nat.div_eq_of_lt hk, Nat.mod_eq_of_lt hk]
      rfl
    · rw [List.getElem?_append_right (by omega), long, ih, show (k - 8) / 8 = k / 8 - 1 by omega, show (k - 8) % 8 = k % 8 by omega,
        List.getElem?_cons, if_neg (by omega)]

/-- Settles O19: bit by bit. -/
theorem statusByteReportsTheBlock : Obligations.StatusByteReportsTheBlock := by
  intro s
  obtain ⟨h7, h6, h5, h4, hq⟩ := status_bits (attnActive s) s.locked (activePort s).isSome (equalizing s) s.budget.seq
  refine ⟨⟨h7, h6, h5, by rw [← equalizing_iff, ← h4]; rfl, hq⟩, attnActive_iff s, toNat_crc8, fun k low => ?_, fun a ha hr => ?_⟩
  · rw [ldoBit]
    split
    · next a ha =>
      have hr : s.link.rstnLow = true := low.resolve_right (by simp [ha])
      rw [hr]
      rfl
    · rfl
  · intro bs
    have bytes : answerBytes a = bs ++ [crc8 bs] := by
      have code : a.out.code = outcomeCode a.out := by cases a.out <;> rfl
      rw [answerBytes, code]
    refine ⟨fun k b hb => ?_, fun k hk => ldoBit_past s a k ha (by omega)⟩
    rw [ldoBit, ha]
    dsimp only
    rw [hr, bytes, getElem?_bitsOfBytes, hb]
    rfl

end Sys2Proof.Machine
end

section
/-! The condition unit's commands, and the limit items as the table of 10.6 lists them: addresses, locks and refusals (10.5, 11.3,
11.4). -/

namespace Sys2Proof.Machine

/-! ### Fields of an answer (R170) -/

/-- A field reads back from the bytes that stand at its place. -/
theorem fieldAt_of_bytesOf {p : List Byte} {j n v : Nat} (hp : (p.drop j).take n = bytesOf n v) (hv : v < 256 ^ n) : fieldAt p j n = v := by
  rw [fieldAt, hp, unsignedOf_bytesOf n v hv]

/-- A byte reads back from its place. -/
theorem fieldAt_of_byte {p : List Byte} {j n : Nat} (hp : (p.drop j).take 1 = [BitVec.ofNat 8 n]) (hn : n < 256) : fieldAt p j 1 = n := by
  rw [fieldAt, hp, unsignedOf_ofNat hn]

/-! ### Conditions and counters (R166 to R168) -/

theorem summaries_bits (u : CondUnit) :
    let n := unsignedOf [summaries u]
    ∀ g ∈ [(7, 0x000000F#26), (5, 0x0000FF0#26), (3, 0x03FF000#26), (1, 0x3C00000#26)],
      n.testBit g.1 = (u.latched &&& g.2 != 0) ∧ n.testBit (g.1 - 1) = (u.latched &&& g.2 &&& ~~~u.masks != 0) := by
  have pair (g : BitVec 26) : groupPair u g = (u.latched &&& g != 0).toNat * 2 + (u.latched &&& g &&& ~~~u.masks != 0).toNat := rfl
  have bits := testBit_flags (u.latched &&& 0x000000F#26 != 0) (u.latched &&& 0x000000F#26 &&& ~~~u.masks != 0)
    (u.latched &&& 0x0000FF0#26 != 0) (u.latched &&& 0x0000FF0#26 &&& ~~~u.masks != 0) (u.latched &&& 0x03FF000#26 != 0)
    (u.latched &&& 0x03FF000#26 &&& ~~~u.masks != 0) (u.latched &&& 0x3C00000#26 != 0) (u.latched &&& 0x3C00000#26 &&& ~~~u.masks != 0)
  have sum : summaries u = BitVec.ofNat 8 ((u.latched &&& 0x000000F#26 != 0).toNat * 128 +
      (u.latched &&& 0x000000F#26 &&& ~~~u.masks != 0).toNat * 64 + (u.latched &&& 0x0000FF0#26 != 0).toNat * 32 +
      (u.latched &&& 0x0000FF0#26 &&& ~~~u.masks != 0).toNat * 16 + (u.latched &&& 0x03FF000#26 != 0).toNat * 8 +
      (u.latched &&& 0x03FF000#26 &&& ~~~u.masks != 0).toNat * 4 + (u.latched &&& 0x3C00000#26 != 0).toNat * 2 +
      (u.latched &&& 0x3C00000#26 &&& ~~~u.masks != 0).toNat) := by
    refine congrArg (BitVec.ofNat 8) ?_
    simp only [groupMasks, List.foldl_cons, List.foldl_nil, pair]
    omega
  rw [← sum] at bits
  obtain ⟨h7, h6, h5, h4, h3, h2, h1, h0⟩ := bits
  intro n g hg
  simp only [List.mem_cons, List.not_mem_nil, or_false] at hg
  rcases hg with rfl | rfl | rfl | rfl
  · exact ⟨h7, h6⟩
  · exact ⟨h5, h4⟩
  · exact ⟨h3, h2⟩
  · exact ⟨h1, h0⟩

theorem unsignedOf_four (b3 b2 b1 b0 : Byte) :
    unsignedOf [b3, b2, b1, b0] = b3.toNat * 16777216 + b2.toNat * 65536 + b1.toNat * 256 + b0.toNat := by
  simp [unsignedOf, Nat.add_assoc]

theorem map_toNat_counterBytes {c : Counters} (h : ∀ n ∈ [c.frameCheck, c.framesShort, c.framesTimeout, c.farNoReply, c.farBadReply,
    c.farCollision, c.recordsShed, c.overdraws], n ≤ 255) :
    (counterBytes c).map BitVec.toNat = [c.frameCheck, c.framesShort, c.framesTimeout, c.farNoReply, c.farBadReply,
      c.farCollision, c.recordsShed, c.overdraws] := by
  refine (List.map_map ..).trans ((List.map_congr_left fun n hn => ?_).trans (List.map_id _))
  have := h n hn
  rw [Function.comp_apply, BitVec.toNat_ofNat, Nat.mod_eq_of_lt (by omega)]
  rfl

/-- Settles O42. -/
theorem conditionCommandsReportAndClear : Obligations.ConditionCommandsReportAndClear := by
  intro s hf
  refine ⟨⟨conditionsBytes s.cond, next_commandFrame hf (by simp) rfl, rfl, ?_, ?_, ?_, ?_⟩, fun m3 m2 m1 m0 e => ?_, fun hc => ?_⟩
  · have := s.cond.latched.isLt
    exact fieldAt_of_bytesOf rfl (by omega)
  · have := s.cond.masks.isLt
    exact fieldAt_of_bytesOf rfl (by omega)
  · refine fieldAt_of_byte rfl ?_
    cases s.cond.master <;> cases s.cond.recordAttn <;> decide
  · exact summaries_bits s.cond
  · have row (r : Result) (h : setMasksCmd [m3, m2, m1, m0, e] (afterEdges s) = r) :
        exec (.setMasks [m3, m2, m1, m0, e]) s = .next (answered r.st r.out r.payload) := next_commandFrame hf (by simp) h
    rw [row _ rfl, setMasksCmd, setMasksArgs, unsignedOf_four]
    rfl
  · refine ⟨counterBytes s.cond.cnt, next_commandFrame hf (by simp) rfl, map_toNat_counterBytes ?_⟩
    simp only [countersOk, Bool.and_eq_true, decide_eq_true_eq] at hc
    simp only [List.mem_cons, List.not_mem_nil, or_false]
    omega

/-! ### The items of section 10.6 -/

/-- The identifier of a single item (R172). -/
def Item.id : Item → Byte
  | .chgTarget .A => 0x01
  | .chgTarget .B => 0x02
  | .fastI .A => 0x03
  | .fastI .B => 0x04
  | .preI .A => 0x05
  | .preI .B => 0x06
  | .preV => 0x07
  | .termI .A => 0x08
  | .termI .B => 0x09
  | .rechargeDrop => 0x0A
  | .preTimer => 0x0B
  | .fastTimer => 0x0C
  | .cutoffV => 0x0D
  | .hardDisI .A => 0x0E
  | .hardDisI .B => 0x0F
  | .hardCount => 0x10
  | .disRated .A => 0x11
  | .disRated .B => 0x12
  | .degradedI => 0x13
  | .ceil .cable => 0x17
  | .ceil .coil => 0x18
  | .defaultI => 0x19
  | .cap .A => 0x1A
  | .cap .B => 0x1B
  | .socKnee => 0x1D
  | .chargeEn .A => 0x1E
  | .chargeEn .B => 0x1F
  | .etaIn => 0x20
  | .margin => 0x21
  | .admitHyst => 0x22
  | .hingeROpen => 0x23
  | .hingeRFolded => 0x24
  | .balGain => 0x25
  | .balDeadband => 0x26
  | .eqEnable => 0x27
  | .eqPower => 0x28
  | .eqStart => 0x29
  | .eqStop => 0x2A
  | .eqLoadMax => 0x2B
  | .etaEq => 0x2C
  | .odMargin => 0x2D
  | .odCount => 0x2E
  | .droopMargin => 0x2F
  | .cablePreferred => 0x30
  | .silenceLimit => 0x31

/-- The row of section 10.6 that an item is. -/
def Item.row (i : Item) : ItemRow :=
  ⟨i.id, fun l => l.get i, (itemRange Limits.default i).1, fun l => (itemRange l i).2, Limits.default.get i, itemLockable i⟩

theorem itemRows_eq : itemRows = allItems.map Item.row := rfl

/-- Every row of section 10.6 is an item's. -/
theorem exists_item_of_mem {e : ItemRow} (h : e ∈ itemRows) : ∃ i : Item, i.row = e := by
  rw [itemRows_eq, List.mem_map] at h
  obtain ⟨i, -, rfl⟩ := h
  exact ⟨i, rfl⟩

/-- An identifier with index 0 names its item (R160, R172). -/
theorem limitAddr_id (i : Item) : limitAddr i.id.toNat 0 = some (.item i) := by
  cases i with
  | ceil p => cases p <;> rfl
  | chgTarget x | fastI x | preI x | termI x | hardDisI x | disRated x | cap x | chargeEn x => cases x <;> rfl
  | _ => rfl

theorem Item.id_injective {i j : Item} (h : i.id = j.id) : i = j := by
  have hi := limitAddr_id i
  rw [h, limitAddr_id j] at hi
  injection hi with hi
  injection hi with hi
  exact hi.symm

theorem limitAddr_edge (k : Fin 4) : limitAddr 0x14 (BitVec.ofNat 8 k.val : Byte).toNat = some (.edge k) := by
  fin_cases k <;> rfl

theorem limitAddr_profile (k : Fin 4) : limitAddr 0x16 (BitVec.ofNat 8 (k.val + 1) : Byte).toNat = some (.profile k) := by
  fin_cases k <;> rfl

theorem limitAddr_rest (k : Fin 11) : limitAddr 0x1C (BitVec.ofNat 8 k.val : Byte).toNat = some (.rest k) := by
  fin_cases k <;> rfl

/-- The zone and the column of an index of the derating table (R172). -/
def zoneOf (z : Fin 5) : Zone := #v[.cold, .cool, .normal, .warm, .hot][z]
def colOf (c : Fin 3) : DerateCol := #v[.charge, .reduction, .discharge][c]

theorem limitAddr_derate (z : Fin 5) (c : Fin 3) :
    limitAddr 0x15 (BitVec.ofNat 8 (z.val * 16 + c.val) : Byte).toNat = some (.derate (zoneOf z) (colOf c)) := by
  fin_cases z <;> fin_cases c <;> rfl

/-! ### The argument lists of SET_LIMIT and GET_LIMIT (R172) -/

theorem signedOf_three (v2 v1 v0 : Byte) : signedOf 24 (unsignedOf [v2, v1, v0]) = signed3 v2 v1 v0 := by
  have value : unsignedOf [v2, v1, v0] = v2.toNat * 65536 + v1.toNat * 256 + v0.toNat := by
    simp [unsignedOf, Nat.add_assoc]
  rw [signedOf, value]
  rfl

theorem word2_eq (hi lo : Byte) : unsignedOf [hi, lo] = word2 hi lo := by
  simp [unsignedOf, word2]

theorem setLimitArgs_value {id idx : Byte} {a : LimitAddr} (v2 v1 v0 : Byte) (ha : limitAddr id.toNat idx.toNat = some a)
    (hp : ∀ k, a ≠ .profile k) : setLimitArgs [id, idx, v2, v1, v0] = some (a, .value (signed3 v2 v1 v0)) := by
  rw [setLimitArgs, ha]
  cases a with
  | profile k => exact absurd rfl (hp k)
  | _ =>
    dsimp only
    rw [signedOf_three]

theorem setLimitArgs_entry {id idx : Byte} {k : Fin 4} (l1 l0 h1 h0 i1 i0 : Byte)
    (ha : limitAddr id.toNat idx.toNat = some (.profile k)) :
    setLimitArgs [id, idx, l1, l0, h1, h0, i1, i0] = some (.profile k, .entry ⟨word2 l1 l0, word2 h1 h0, word2 i1 i0⟩) := by
  rw [setLimitArgs, ha]
  dsimp only
  rw [word2_eq, word2_eq, word2_eq]

/-- A single item's index must be 0 (R160, R172). -/
theorem limitAddr_single {id : Nat} (idx : Nat) (h14 : id ≠ 0x14) (h15 : id ≠ 0x15) (h16 : id ≠ 0x16) (h1C : id ≠ 0x1C) :
    limitAddr id idx = if idx = 0 then (itemOfId id).map .item else none := by
  unfold limitAddr
  split
  · exact absurd rfl h14
  · exact absurd rfl h15
  · exact absurd rfl h16
  · exact absurd rfl h1C
  · rfl

theorem itemOfId_none {id : Nat} (h : id = 0 ∨ 0x31 < id) : itemOfId id = none := by
  unfold itemOfId
  split <;> first | rfl | omega

theorem zoneOfCode_none {n : Nat} (h : 4 < n) : zoneOfCode n = none := by
  unfold zoneOfCode
  split <;> first | rfl | omega

theorem colOfCode_none {n : Nat} (h : 2 < n) : colOfCode n = none := by
  unfold colOfCode
  split <;> first | rfl | omega

theorem limitAddr_derate_none {idx : Nat} (h : 4 < idx / 16 ∨ 2 < idx % 16) : limitAddr 0x15 idx = none := by
  simp only [limitAddr]
  split
  · next z c hz hc =>
    rcases h with h | h
    · rw [zoneOfCode_none h] at hz
      cases hz
    · rw [colOfCode_none h] at hc
      cases hc
  · rfl

/-- What no identifier and index name (R160, R172). -/
theorem limitAddr_none {id idx : Byte}
    (h : id = 0 ∨ 0x31 < id.toNat ∨ (id ≠ 0x14 ∧ id ≠ 0x15 ∧ id ≠ 0x16 ∧ id ≠ 0x1C ∧ idx ≠ 0) ∨
      (id = 0x14 ∧ 3 < idx.toNat) ∨ (id = 0x15 ∧ (4 < idx.toNat / 16 ∨ 2 < idx.toNat % 16)) ∨ (id = 0x1C ∧ 10 < idx.toNat) ∨
      (id = 0x16 ∧ (idx = 0 ∨ 4 < idx.toNat))) : limitAddr id.toNat idx.toNat = none := by
  have distinct (b : Byte) (hne : id ≠ b) : id.toNat ≠ b.toNat := fun he => hne (BitVec.eq_of_toNat_eq he)
  rcases h with rfl | h | ⟨h14, h15, h16, h1C, hidx⟩ | ⟨rfl, h⟩ | ⟨rfl, h⟩ | ⟨rfl, h⟩ | ⟨rfl, h⟩
  · rw [limitAddr_single _ (by decide) (by decide) (by decide) (by decide), itemOfId_none (id := BitVec.toNat 0) (.inl rfl)]
    split <;> rfl
  · rw [limitAddr_single _ (by omega) (by omega) (by omega) (by omega), itemOfId_none (.inr h)]
    split <;> rfl
  · rw [limitAddr_single _ (distinct 0x14 h14) (distinct 0x15 h15) (distinct 0x16 h16) (distinct 0x1C h1C),
      if_neg fun h0 : idx.toNat = 0 => hidx (BitVec.eq_of_toNat_eq h0)]
  · exact dif_neg (by omega)
  · exact limitAddr_derate_none h
  · exact dif_neg (by omega)
  · refine dif_neg ?_
    rcases h with rfl | h
    · decide
    · omega

theorem eq_of_limitAddr_profile {id idx : Nat} {k : Fin 4} (h : limitAddr id idx = some (.profile k)) : id = 0x16 := by
  by_contra h16
  by_cases h14 : id = 0x14
  · subst h14
    simp only [limitAddr] at h
    split at h <;> cases h
  · by_cases h15 : id = 0x15
    · subst h15
      simp only [limitAddr] at h
      split at h <;> cases h
    · by_cases h1C : id = 0x1C
      · subst h1C
        simp only [limitAddr] at h
        split at h <;> cases h
      · rw [limitAddr_single _ h14 h15 h16 h1C] at h
        split at h
        · cases hi : itemOfId id <;> simp [hi] at h
        · cases h

theorem setLimitArgs_value_none {id idx : Byte} (v2 v1 v0 : Byte)
    (ha : ∀ a, limitAddr id.toNat idx.toNat = some a → ∃ k, a = .profile k) : setLimitArgs [id, idx, v2, v1, v0] = none := by
  rw [setLimitArgs]
  cases h : limitAddr id.toNat idx.toNat with
  | none => rfl
  | some a =>
    obtain ⟨k, rfl⟩ := ha a h
    rfl

theorem setLimitArgs_entry_none {id idx : Byte} (l1 l0 h1 h0 i1 i0 : Byte)
    (ha : ∀ k, limitAddr id.toNat idx.toNat ≠ some (.profile k)) : setLimitArgs [id, idx, l1, l0, h1, h0, i1, i0] = none := by
  rw [setLimitArgs]
  cases h : limitAddr id.toNat idx.toNat with
  | none => rfl
  | some a =>
    cases a with
    | profile k => exact absurd h (ha k)
    | _ => rfl

theorem limitAddr_profile_only {idx : Nat} {a : LimitAddr} (h : limitAddr 0x16 idx = some a) : ∃ k, a = .profile k := by
  simp only [limitAddr] at h
  split at h
  · cases h
    exact ⟨_, rfl⟩
  · cases h

/-! ### The lock (R161) -/

/-- Settles O38. -/
theorem lockedItemsRefuseAWrite : Obligations.LockedItemsRefuseAWrite := by
  intro s hf
  have set {args : List Byte} {out : Outc} (hn : args.length ≤ 32) (h : setLimitCmd args (afterEdges s) = refuse (afterEdges s) out) :
      answersOnly (.setLimit args) s out [] := answersOnly_of_refuse rfl hf hn h
  have unnamed {args : List Byte} (hn : args.length ≤ 32) (h : setLimitArgs args = none) : answersOnly (.setLimit args) s .badArg [] :=
    set hn (by rw [setLimitCmd, h])
  refine ⟨next_commandFrame hf (by simp) rfl, fun hlock v2 v1 v0 => ?_, fun id idx v2 v1 v0 hnone => ?_,
    fun id idx v2 v1 v0 h2 h1 h0 => ⟨unnamed (by simp) ?_, fun hid => unnamed (by simp) ?_⟩⟩
  · have lock : (afterEdges s).locked = true := hlock
    have locked {args : List Byte} {a : LimitAddr} {w : LimitValue} (hn : args.length ≤ 32) (ha : setLimitArgs args = some (a, w))
        (hl : a.lockable = true) : answersOnly (.setLimit args) s .locked [] := by
      refine set hn ?_
      rw [setLimitCmd, ha]
      dsimp only
      rw [hl, lock]
      rfl
    refine ⟨fun e he hl => ?_, fun k => ⟨?_, fun h2 h1 h0 => ?_⟩, fun z c => ?_⟩
    · obtain ⟨i, rfl⟩ := exists_item_of_mem he
      exact locked (by simp) (setLimitArgs_value v2 v1 v0 (limitAddr_id i) (by simp)) hl
    · exact locked (by simp) (setLimitArgs_value v2 v1 v0 (limitAddr_edge k) (by simp)) rfl
    · exact locked (by simp) (setLimitArgs_entry v2 v1 v0 h2 h1 h0 (limitAddr_profile k)) rfl
    · exact locked (by simp) (setLimitArgs_value v2 v1 v0 (limitAddr_derate z c) (by simp)) rfl
  · have none := limitAddr_none hnone
    refine ⟨unnamed (by simp) (setLimitArgs_value_none _ _ _ (by simp [none])), ?_,
      fun h2 h1 h0 => unnamed (by simp) (setLimitArgs_entry_none _ _ _ _ _ _ (by simp [none]))⟩
    refine answersOnly_of_refuse (cmd := getLimitCmd) rfl hf (by simp) ?_
    rw [getLimitCmd, getLimitArgs, none]
  · exact setLimitArgs_value_none _ _ _ fun a ha => limitAddr_profile_only ha
  · exact setLimitArgs_entry_none _ _ _ _ _ _ fun k hk => hid (BitVec.eq_of_toNat_eq (eq_of_limitAddr_profile hk))

end Sys2Proof.Machine
end

section
/-! SET_LIMIT and GET_LIMIT of every item and table entry: what is stored, what is handed on and what is reported (10.5, 10.6). -/

namespace Sys2Proof.Machine

/-! ### Ranges and clamps -/

theorem clampTo_eq {r : Nat × Nat} (v : Int) (h : r.1 ≤ r.2) : (clampTo r v : Int) = min (r.2 : Int) (max r.1 v) := by
  have nonneg : 0 ≤ clampInt r.1 r.2 v := by
    have := clampInt_mem r.1 r.2 v (by omega)
    omega
  rw [clampTo, Int.toNat_of_nonneg nonneg, clampInt_eq_min_max _ _ _ (by omega)]

/-- The low end of every item is fixed (10.6). -/
theorem itemRange_lo (l l' : Limits) (i : Item) : (itemRange l i).1 = (itemRange l' i).1 := by
  by_cases h : i = .eqStop
  · subst h
    rfl
  · rw [itemRange_congr fun he => absurd he h]

theorem itemRange_hi_le {l : Limits} (h : l.Fits) (i : Item) : (itemRange l i).2 ≤ 45000 := by
  cases i with
  | ceil p => cases p <;> simp [itemRange]
  | eqStop =>
    have : l.eqStart ≤ 300 := (h.item .eqStart).2
    change l.eqStart - 10 ≤ 45000
    omega
  | _ => simp [itemRange]

/-- What a write of an item stores (R160). -/
theorem clampTo_itemRange (l : Limits) (i : Item) (v : Int) :
    (clampTo (itemRange l i) v : Int) = min ((i.row.hi l : Nat) : Int) (max (i.row.lo : Int) v) := by
  rw [clampTo_eq v (itemRange_le l i), itemRange_lo l Limits.default i]
  rfl

/-! ### GET_LIMIT (R163) -/

/-- A signed field reads back from the bytes that stand at its place (R170). -/
theorem signedAt_of_signedBytesOf {p : List Byte} {j n : Nat} {v : Int} (hp : (p.drop j).take n = signedBytesOf n v) (hn : 0 < n)
    (hv : -2 ^ (8 * n - 1) ≤ v ∧ v < 2 ^ (8 * n - 1)) : signedAt p j n = v := by
  have whole : (256 : Nat) ^ n = 2 * 2 ^ (8 * n - 1) := by
    rw [← pow_succ', show 8 * n - 1 + 1 = 8 * n by omega, pow_mul]
    norm_num
  have wholeInt : (256 : Int) ^ n = 2 * 2 ^ (8 * n - 1) := by exact_mod_cast whole
  have twice : (2 : Int) ^ (8 * n) = 2 * 2 ^ (8 * n - 1) := by rw [← pow_succ', show 8 * n - 1 + 1 = 8 * n by omega]
  have cast : ((2 ^ (8 * n - 1) : Nat) : Int) = 2 ^ (8 * n - 1) := by push_cast; rfl
  have pos : (0 : Int) < 2 ^ (8 * n - 1) := by positivity
  have figure : fieldAt p j n = (v % (256 : Int) ^ n).toNat := by
    refine fieldAt_of_bytesOf hp ?_
    rw [whole, wholeInt]
    generalize 2 ^ (8 * n - 1) = m at cast pos ⊢
    have := Int.emod_lt_of_pos v (show 0 < 2 * (2 : Int) ^ (8 * n - 1) by omega)
    have := Int.emod_nonneg v (show 2 * (2 : Int) ^ (8 * n - 1) ≠ 0 by omega)
    omega
  rw [signedAt, figure, wholeInt, twice]
  generalize (2 : Int) ^ (8 * n - 1) = m at *
  generalize 2 ^ (8 * n - 1) = k at *
  subst cast
  rcases lt_or_ge v 0 with hneg | hpos
  · rw [← Int.add_emod_right, Int.emod_eq_of_lt (by omega) (by omega), if_neg (by omega)]
    omega
  · rw [Int.emod_eq_of_lt hpos (by omega), if_pos (by omega)]
    omega

/-- A GET_LIMIT of an item of four signed figures reads back (R163, R172). -/
theorem getLimit_reports {s : State} {id idx : Byte} {a : LimitAddr} {v lo hi d : Int} (hf : takesFrame s)
    (ha : limitAddr id.toNat idx.toNat = some a) (hr : limitReport s.lim a = limitBytes v lo hi d)
    (hb : ∀ w ∈ [v, lo, hi, d], -50000 ≤ w ∧ w ≤ 50000) :
    ∃ p, answersOnly (.getLimit [id, idx]) s .done p ∧ p.length = 13 ∧ signedAt p 0 3 = v ∧ signedAt p 3 3 = lo ∧
      signedAt p 6 3 = hi ∧ signedAt p 9 3 = d ∧ fieldAt p 12 1 = a.lockable.toNat * 2 + s.locked.toNat := by
  have row (r : Result) (h : getLimitCmd [id, idx] (afterEdges s) = r) :
      exec (.getLimit [id, idx]) s = .next (answered r.st r.out r.payload) := next_commandFrame hf (by simp) h
  have bound (w : Int) (hw : w ∈ [v, lo, hi, d]) : -2 ^ (8 * 3 - 1) ≤ w ∧ w < 2 ^ (8 * 3 - 1) := by
    have := hb w hw
    omega
  refine ⟨limitBytes v lo hi d ++ [limitFlags a s.locked], ?_, rfl, signedAt_of_signedBytesOf rfl (by omega) (bound v (by simp)),
    signedAt_of_signedBytesOf rfl (by omega) (bound lo (by simp)), signedAt_of_signedBytesOf rfl (by omega) (bound hi (by simp)),
    signedAt_of_signedBytesOf rfl (by omega) (bound d (by simp)), fieldAt_of_byte rfl ?_⟩
  · refine row ⟨afterEdges s, .done, _⟩ ?_
    rw [getLimitCmd, getLimitArgs, ha, ← hr]
    rfl
  · cases a.lockable <;> cases s.locked <;> decide

theorem get_le {l : Limits} (h : l.Fits) (i : Item) : l.get i ≤ 45000 := (h.item i).2.trans (itemRange_hi_le h i)

theorem fits_default : Limits.default.Fits := (limitsOk_iff _).mp limitsOk_default

theorem derateAt_eq (d : Derate) (z : Fin 5) (c : Fin 3) : derateAt d z c = (d.row (zoneOf z)).get (colOf c) := by
  fin_cases z <;> fin_cases c <;> rfl

theorem derate_le {l : Limits} (h : l.Fits) (z : Zone) (c : DerateCol) : (l.derate.row z).get c ≤ 300 := by
  have row := h.derate z
  simp only [derateRowOk, Bool.and_eq_true, decide_eq_true_eq] at row
  cases c <;> simp only [DerateRow.get] <;> omega

theorem derate_default_mem : ∀ (z : Fin 5) (c : Fin 3),
    let d : Int := #v[#v[0, 0, 64], #v[128, 0, 192], #v[256, 0, 256], #v[128, 100, 192], #v[0, 0, 128]][z][c]
    0 ≤ d ∧ d ≤ 300 := by
  decide

theorem rest_mem {l : Limits} (h : l.Fits) (k : Fin 11) : 2500 ≤ l.rest[k] ∧ l.rest[k] ≤ 4600 := by
  have ends := h.restEnds
  have r0 := h.rest_lt 0 (by omega)
  have r1 := h.rest_lt 1 (by omega)
  have r2 := h.rest_lt 2 (by omega)
  have r3 := h.rest_lt 3 (by omega)
  have r4 := h.rest_lt 4 (by omega)
  have r5 := h.rest_lt 5 (by omega)
  have r6 := h.rest_lt 6 (by omega)
  have r7 := h.rest_lt 7 (by omega)
  have r8 := h.rest_lt 8 (by omega)
  have r9 := h.rest_lt 9 (by omega)
  fin_cases k <;> simp at * <;> omega

theorem restRange_lo (l : Limits) (k : Fin 11) :
    ((restRange l k).1 : Int) = if h : k.val = 0 then 2500 else ((l.rest[k.val - 1] + 1 : Nat) : Int) := by
  unfold restRange
  dsimp only
  split <;> rfl

theorem restRange_hi {l : Limits} (h : l.Fits) (k : Fin 11) :
    ((restRange l k).2 : Int) = if h : k.val = 10 then 4600 else (l.rest[k.val + 1] : Int) - 1 := by
  unfold restRange
  dsimp only
  split
  · rfl
  · next hk =>
    have := (rest_mem h ⟨k.val + 1, by omega⟩).1
    exact Int.natCast_sub (by simp at this; omega)

theorem restRange_mem {l : Limits} (h : l.Fits) (k : Fin 11) : 2500 ≤ (restRange l k).1 ∧ (restRange l k).2 ≤ 4600 := by
  have below (i : Fin 11) := rest_mem h i
  unfold restRange
  dsimp only
  constructor
  · split
    · omega
    · have := below ⟨k.val - 1, by omega⟩
      simp at this
      omega
  · split
    · omega
    · have := below ⟨k.val + 1, by omega⟩
      simp at this
      omega

theorem profile_ok {l : Limits} (h : l.Fits) (k : Fin 4) :
    l.profile[k].vlo ≤ 16000 ∧ l.profile[k].vhi ≤ 16000 ∧ l.profile[k].imax ≤ 5000 := by
  have := h.profile l.profile[k] (by simp)
  simp only [profileOk, Bool.and_eq_true, Bool.or_eq_true, decide_eq_true_eq, beq_iff_eq] at this
  omega

/-- Settles O39: each address's report is its layout, and every figure fits its field. -/
theorem getLimitReportsTheEntry : Obligations.GetLimitReportsTheEntry := by
  intro s hf hl
  have fits := (limitsOk_iff _).mp hl
  have edges := (edgesOk_iff _).mp fits.edges
  refine ⟨fun e he => ?_, fun k => ?_, fun z c => ?_, fun k => ?_, fun k => ?_⟩
  · obtain ⟨i, rfl⟩ := exists_item_of_mem he
    have value := get_le fits i
    have dflt := get_le fits_default i
    have hi := itemRange_hi_le fits i
    have lo := itemRange_le s.lim i
    refine getLimit_reports (idx := 0) hf (limitAddr_id i) ?_ ?_
    · rw [limitReport, itemRange_lo s.lim Limits.default]
      rfl
    · rw [itemRange_lo s.lim Limits.default] at lo
      simp only [List.mem_cons, List.not_mem_nil, or_false, Item.row]
      omega
  · refine getLimit_reports (id := 0x14) hf (limitAddr_edge k) ?_ ?_
    · fin_cases k <;> rfl
    · fin_cases k <;> simp <;> omega
  · refine getLimit_reports (id := 0x15) hf (limitAddr_derate z c) ?_ ?_
    · fin_cases z <;> fin_cases c <;> rfl
    · have := derate_le fits (zoneOf z) (colOf c)
      have := derate_default_mem z c
      simp only [List.mem_cons, List.not_mem_nil, or_false, derateAt_eq]
      rintro w (rfl | rfl | rfl | rfl)
      · omega
      · omega
      · split <;> omega
      · omega
  · refine getLimit_reports (id := 0x1C) hf (limitAddr_rest k) ?_ ?_
    · rw [limitReport, restRange_lo, restRange_hi fits]
      fin_cases k <;> rfl
    · have := rest_mem fits k
      have := fits.restRange_le k
      have := restRange_mem fits k
      have := rest_mem fits_default k
      rw [← restRange_lo, ← restRange_hi fits]
      simp only [List.mem_cons, List.not_mem_nil, or_false]
      rintro w (rfl | rfl | rfl | rfl)
      · omega
      · omega
      · omega
      · fin_cases k <;> simp
  · have figures := profile_ok fits k
    have dflt := profile_ok fits_default k
    have row (r : Result) (h : getLimitCmd [0x16, BitVec.ofNat 8 (k.val + 1)] (afterEdges s) = r) :
        exec (.getLimit [0x16, BitVec.ofNat 8 (k.val + 1)]) s = .next (answered r.st r.out r.payload) := next_commandFrame hf (by simp) h
    refine ⟨limitReport s.lim (.profile k) ++ [limitFlags (.profile k) s.locked], row ⟨afterEdges s, .done, _⟩ ?_, rfl,
      fieldAt_of_bytesOf rfl (by omega), fieldAt_of_bytesOf rfl (by omega), fieldAt_of_bytesOf rfl (by omega),
      (fieldAt_of_bytesOf (v := Limits.default.profile[k].vlo) rfl (by omega)).trans (by fin_cases k <;> rfl),
      (fieldAt_of_bytesOf (v := Limits.default.profile[k].vhi) rfl (by omega)).trans (by fin_cases k <;> rfl),
      (fieldAt_of_bytesOf (v := Limits.default.profile[k].imax) rfl (by omega)).trans (by fin_cases k <;> rfl),
      fieldAt_of_bytesOf rfl (by omega), fieldAt_of_bytesOf rfl (by omega), fieldAt_of_bytesOf rfl (by omega),
      fieldAt_of_bytesOf rfl (by omega), (fieldAt_of_byte (n := 1 * 2 + s.locked.toNat) rfl ?_)⟩
    · rw [getLimitCmd, getLimitArgs]
      have ha : limitAddr (0x16 : Byte).toNat (BitVec.ofNat 8 (k.val + 1) : Byte).toNat = some (.profile k) := limitAddr_profile k
      rw [ha]
      rfl
    · cases s.locked <;> decide

end Sys2Proof.Machine
end

section
/-! SET_LIMIT: what a write stores and hands on (10.5). -/

namespace Sys2Proof.Machine

/-! ### A write that is carried out (R160, R162) -/

theorem setLimit_carriedOut {s : State} {args : List Byte} {a : LimitAddr} {w : LimitValue} (hf : takesFrame s) (hn : args.length ≤ 32)
    (ha : setLimitArgs args = some (a, w)) (hlock : a.lockable = true → s.locked = false) :
    exec (.setLimit args) s = .next (answered (applyWrite a (writeLimit s.lim a w).1 (afterEdges s))
      (if (writeLimit s.lim a w).2 then .doneClamped else .done) []) := by
  have row (r : Result) (h : setLimitCmd args (afterEdges s) = r) :
      exec (.setLimit args) s = .next (answered r.st r.out r.payload) := next_commandFrame hf hn h
  have free : ¬((a.lockable && (afterEdges s).locked) = true) := by
    intro h
    obtain ⟨hl, hs⟩ := Bool.and_eq_true_iff.mp h
    have : s.locked = true := hs
    rw [hlock hl] at this
    cases this
  refine row ⟨_, _, _⟩ ?_
  rw [setLimitCmd, ha]
  dsimp only
  rw [if_neg free]
  rfl

theorem applyWrite_same (a : LimitAddr) {l : Limits} {s : State} (h : l = s.lim) : applyWrite a l s = s := if_pos h

theorem applyWrite_new (a : LimitAddr) {l : Limits} {s : State} (h : l ≠ s.lim) :
    applyWrite a l s = handOffLimit a s.lim (withRequest { s with lim := l }) := by
  rw [applyWrite, if_neg h, requestPass_eq]

theorem bne_eq_decide {α : Type} [DecidableEq α] (x y : α) : (x != y) = decide (x ≠ y) := by
  rw [Bool.eq_iff_iff]
  simp

theorem lim_handOffLimit (a : LimitAddr) (old : Limits) (s : State) : (handOffLimit a old s).lim = s.lim := by
  unfold handOffLimit
  split
  · exact (keepsLimits_of_updates (updates_reevaluateBoth s)).1
  · exact (keepsLimits_of_updates (updates_reevaluateBoth s)).1
  · exact (keepsLimits_of_updates (updates_reevaluateBoth s)).1
  · exact lim_rescale ..
  · exact (keepsLimits_of_updates (.of (.preference s))).1
  all_goals rfl

theorem lim_applyWrite (a : LimitAddr) (l : Limits) (s : State) : (applyWrite a l s).lim = l := by
  by_cases h : l = s.lim
  · rw [applyWrite_same a h, h]
  · rw [applyWrite_new a h, lim_handOffLimit]
    rfl

/-! ### The tables (R79, R81, R85, R133) -/

theorem edgeRange_eq (l : Limits) (k : Fin 4) : edgeRange l k = (if h : k.val = 0 then -30 else l.zoneEdges[k.val - 1] + 5,
    if h : k.val = 3 then 70 else l.zoneEdges[k.val + 1] - 5) := by
  fin_cases k <;> rfl

theorem edgeRange_le {l : Limits} (h : l.Fits) (k : Fin 4) : (edgeRange l k).1 ≤ (edgeRange l k).2 := by
  have edges := (edgesOk_iff _).mp h.edges
  fin_cases k <;> simp [edgeRange] <;> omega

theorem withDerate_eq (d : Derate) (z : Fin 5) (c : Fin 3) (v : Nat) : withDerate d z c v = d.put (zoneOf z) (colOf c) v := by
  fin_cases z <;> fin_cases c <;> rfl

theorem colRange_eq (c : Fin 3) : ((colRange (colOf c)).1 : Int) = 0 ∧ ((colRange (colOf c)).2 : Int) = if c = 1 then 300 else 256 := by
  fin_cases c <;> exact ⟨rfl, rfl⟩

theorem clampProfile_eq (e : ProfileEntry) :
    clampProfile e =
      let lo := min 16000 (max 4000 e.vlo) / 20 * 20
      let hi := min 16000 (max 4000 e.vhi) / 20 * 20
      ⟨lo, if hi < lo then lo else hi, if e.imax = 0 then 0 else min 5000 (max 100 e.imax) / 10 * 10⟩ := by
  have upper (lo hi : Nat) : max lo hi = if hi < lo then lo else hi := by
    split <;> omega
  rw [clampProfile, clampNat_eq_min_max _ _ _ (by omega), clampNat_eq_min_max _ _ _ (by omega), clampNat_eq_min_max _ _ _ (by omega)]
  simp only [upper]

/-- A table entry written: what stands there afterwards, and whether the clamps altered it. -/
theorem setLimit_stores {s : State} {args : List Byte} {a : LimitAddr} {w : LimitValue} {l : Limits} {clamped : Bool}
    {handOn : State → State} (hf : takesFrame s) (hn : args.length ≤ 32) (ha : setLimitArgs args = some (a, w))
    (hlock : a.lockable = true → s.locked = false) (hw : writeLimit s.lim a w = (l, clamped))
    (hand : ∀ old t, handOffLimit a old t = handOn t) :
    exec (.setLimit args) s = .next (answered (if l = s.lim then afterEdges s else handOn (withRequest { afterEdges s with lim := l }))
      (if clamped then .doneClamped else .done) []) := by
  rw [setLimit_carriedOut hf hn ha hlock, hw]
  dsimp only
  by_cases h : l = s.lim
  · rw [if_pos h, applyWrite_same (s := afterEdges s) a h]
  · rw [if_neg h, applyWrite_new (s := afterEdges s) a h, hand]

/-- Settles O37: each table by what its clamp gives. -/
theorem setLimitStoresATableEntry : Obligations.SetLimitStoresATableEntry := by
  intro s hf hl
  have fits := (limitsOk_iff _).mp hl
  refine ⟨fun hlock k v2 v1 v0 => ?_, fun hlock z c v2 v1 v0 => ?_, fun hlock k l1 l0 h1 h0 i1 i0 => ?_, fun k v2 v1 v0 => ?_⟩
  · refine setLimit_stores hf (by simp) (setLimitArgs_value v2 v1 v0 (limitAddr_edge k) (by simp)) (fun _ => hlock) ?_ fun _ _ => rfl
    rw [writeLimit]
    dsimp only
    rw [clampInt_eq_min_max _ _ _ (edgeRange_le fits k), edgeRange_eq, bne_eq_decide]
  · refine setLimit_stores hf (by simp) (setLimitArgs_value v2 v1 v0 (limitAddr_derate z c) (by simp)) (fun _ => hlock) ?_ fun _ _ => rfl
    have value := clampTo_eq (signed3 v2 v1 v0) (colRange_le (colOf c))
    rw [(colRange_eq c).1, (colRange_eq c).2] at value
    rw [writeLimit]
    dsimp only
    rw [withDerate_eq, ← value, bne_eq_decide, Int.toNat_natCast]
  · refine setLimit_stores hf (by simp) (setLimitArgs_entry l1 l0 h1 h0 i1 i0 (limitAddr_profile k)) (fun _ => hlock) ?_ fun _ _ => rfl
    rw [writeLimit]
    dsimp only
    rw [clampProfile_eq, bne_eq_decide]
  · refine setLimit_stores hf (by simp) (setLimitArgs_value v2 v1 v0 (limitAddr_rest k) (by simp)) (fun h => nomatch h) ?_ fun _ _ => rfl
    have value := clampTo_eq (signed3 v2 v1 v0) (fits.restRange_le k)
    rw [restRange_lo, restRange_hi fits] at value
    rw [writeLimit]
    dsimp only
    have nat := congrArg Int.toNat value
    rw [Int.toNat_natCast] at nat
    rw [bne_eq_decide, value, nat]
    rfl

/-! ### The single items (R160, R162) -/

/-- The items after a write of one: the item itself, EQ_STOP below a lowered EQ_START, and every other as it was. -/
theorem get_writeLimit (l : Limits) (i j : Item) (v : Int) :
    ((writeLimit l (.item i) (.value v)).1).get j = if j = i then clampTo (itemRange l i) v
      else if i = .eqStart ∧ j = .eqStop then min l.eqStop (clampTo (itemRange l i) v - 10) else l.get j := by
  simp only [writeLimit]
  by_cases hi : i = .eqStart
  · subst hi
    rw [if_pos rfl]
    by_cases hj : j = .eqStart
    · subst hj
      rfl
    · rw [if_neg hj]
      by_cases hs : j = .eqStop
      · subst hs
        rfl
      · rw [if_neg fun h => hs h.2, ← Limits.get_put_of_ne l (clampTo (itemRange l .eqStart) v) hj]
        exact Limits.get_put_of_ne (l.put .eqStart (clampTo (itemRange l .eqStart) v)) _ hs
  · rw [if_neg hi, if_neg (c := i = .eqStart ∧ j = .eqStop) fun h => hi h.1]
    by_cases hj : j = i
    · rw [hj, if_pos rfl, Limits.get_put_self]
    · rw [if_neg hj, Limits.get_put_of_ne l _ hj]

theorem writeLimit_tables (l : Limits) (i : Item) (v : Int) :
    let l' := (writeLimit l (.item i) (.value v)).1
    l'.zoneEdges = l.zoneEdges ∧ l'.derate = l.derate ∧ l'.profile = l.profile ∧ l'.rest = l.rest := by
  intro l'
  by_cases hi : i = .eqStart
  · subst hi
    exact ⟨rfl, rfl, rfl, rfl⟩
  · have put : l' = l.put i (clampTo (itemRange l i) v) := if_neg hi
    rw [put]
    exact ⟨l.put_zoneEdges .., l.put_derate .., l.put_profile .., l.put_rest ..⟩

/-- A change of the preference where it switches the input over (R150). -/
theorem preferenceChange_eq (s : State) :
    preferenceChange s =
      let preferred : PortId := if s.lim.cablePreferred = 1 then .cable else .coil
      let other : PortId := if s.lim.cablePreferred = 1 then .coil else .cable
      let q := s.port.get preferred
      if s.arb.st = .active other ∧ q.held.isSome ∧ (q.st = .ready ∨ q.st = .proposed ∨ q.st = .confirming) then
        switchOpened .changeover s
      else s := by
  extract_lets preferred other q
  have prefers : preferredPort s.lim = preferred := rfl
  have other_ne (p : PortId) : p ≠ preferred ↔ p = other := by
    simp only [preferred, other]
    split <;> cases p <;> simp
  have takes : eligible s preferred = true ↔ q.held.isSome = true ∧ (q.st = .ready ∨ q.st = .proposed ∨ q.st = .confirming) :=
    Port.eligible_iff q
  unfold preferenceChange
  cases harb : s.arb.st with
  | none => exact (if_neg fun h => nomatch h.1).symm
  | changeover => exact (if_neg fun h => nomatch h.1).symm
  | active p =>
    dsimp only
    rw [leaveActive_eq, prefers]
    refine ite_congr (propext ?_) (fun _ => rfl) (fun _ => rfl)
    rw [other_ne, takes, ArbState.active.injEq]

/-- A capacity's change rescales the count (R80). -/
theorem rescale_eq (x : Cell) (old : Nat) (s : State) :
    rescale x old s = match readingOf s x with
      | some r => withCount x (r.count * s.lim.cap.get x / old) s
      | none => s := by
  unfold rescale
  cases h : readingOf s x with
  | none => rfl
  | some r => exact putReading_count h _

/-- What a change of an item is handed on to, by its identifier (R162). -/
theorem handOffLimit_item (i : Item) (old : Limits) (s : State) :
    handOffLimit (.item i) old s = if i.id = 0x17 ∨ i.id = 0x18 ∨ i.id = 0x19 then reevaluateBoth s
      else if i.id = 0x1A then rescale .A old.cap.a s else if i.id = 0x1B then rescale .B old.cap.b s
      else if i.id = 0x30 then preferenceChange s else s := by
  cases i with
  | ceil p => cases p <;> rfl
  | chgTarget x | fastI x | preI x | termI x | hardDisI x | disRated x | cap x | chargeEn x => cases x <;> rfl
  | _ => rfl

/-- Settles O36: the item clamped, the others by `get_writeLimit`, and the hand-off by the identifier. -/
theorem setLimitStoresAnItemWithinItsRange : Obligations.SetLimitStoresAnItemWithinItsRange := by
  intro s e v2 v1 v0 he hf hl hlock v w
  obtain ⟨i, rfl⟩ := exists_item_of_mem he
  let l := (writeLimit s.lim (.item i) (.value v)).1
  have lim : (applyWrite (.item i) l (afterEdges s)).lim = l := lim_applyWrite ..
  have stored : (clampTo (itemRange s.lim i) v : Int) = w := clampTo_itemRange s.lim i v
  have value (j : Item) : j.row.value l = l.get j := rfl
  obtain ⟨edges, derate, profile, rest⟩ := writeLimit_tables s.lim i v
  refine ⟨applyWrite (.item i) l (afterEdges s), ?_, ?_, fun f hfm hne => ?_, by rw [lim]; exact edges, by rw [lim]; exact derate,
    by rw [lim]; exact profile, by rw [lim]; exact rest, fun h => applyWrite_same _ (lim ▸ h), fun h => ?_⟩
  · have args : setLimitArgs [i.row.id, 0, v2, v1, v0] = some (.item i, .value v) :=
      setLimitArgs_value (idx := 0) v2 v1 v0 (limitAddr_id i) (by simp)
    rw [setLimit_carriedOut hf (by simp) args hlock]
    have clamped : (writeLimit s.lim (.item i) (.value (signed3 v2 v1 v0))).2 = decide (w ≠ v) := by
      rw [← stored, ← bne_eq_decide]
      rfl
    rw [clamped]
    by_cases h : w = v
    · rw [if_pos h, decide_eq_false (by simp [h])]
      rfl
    · rw [if_neg h, decide_eq_true h]
      rfl
  · rw [lim, value, get_writeLimit, if_pos rfl, stored]
  · obtain ⟨j, rfl⟩ := exists_item_of_mem hfm
    have hji : j ≠ i := fun h => hne (h ▸ rfl)
    have names : (i.row.id = 0x29 ∧ j.row.id = 0x2A) ↔ (i = .eqStart ∧ j = .eqStop) :=
      ⟨fun h => ⟨Item.id_injective (j := .eqStart) h.1, Item.id_injective (j := .eqStop) h.2⟩, fun h => by rw [h.1, h.2]; exact ⟨rfl, rfl⟩⟩
    rw [lim, value, get_writeLimit, if_neg hji]
    have start (hs : i = .eqStart) : l.eqStart = clampTo (itemRange s.lim i) v := by
      subst hs
      exact get_writeLimit s.lim .eqStart .eqStart v
    exact ite_congr (propext names.symm) (fun hs => by rw [start (names.mp hs).1]) fun _ => rfl
  · rw [lim] at h ⊢
    rw [applyWrite_new (s := afterEdges s) _ h, handOffLimit_item, rescale_eq, rescale_eq, preferenceChange_eq]
    rfl

end Sys2Proof.Machine
end

section
/-! The reads of the budget, of a port and of a cell: READ_BUDGET, READ_INPUT and READ_CELL (2.7, 4.8, 8.10, 12.5). -/

namespace Sys2Proof.Machine

/-! ### Packed answers (R170) -/

/-- The bits of a list of fields, each a width and a figure. -/
def bitsOfFields (fs : List (Nat × Nat)) : List Bool := fs.flatMap fun f => bitsOf f.1 f.2

theorem packed_eq (fs : List (Nat × Nat)) : packed fs = wholeBytes (bitsOfFields fs) := rfl

@[simp] theorem bitsOfFields_nil : bitsOfFields [] = [] := rfl

@[simp] theorem bitsOfFields_cons (w v : Nat) (fs : List (Nat × Nat)) : bitsOfFields ((w, v) :: fs) = bitsOf w v ++ bitsOfFields fs := rfl

@[simp] theorem bitsOfFields_append (fs gs : List (Nat × Nat)) : bitsOfFields (fs ++ gs) = bitsOfFields fs ++ bitsOfFields gs :=
  List.flatMap_append

@[simp] theorem length_bitsOf (w v : Nat) : (bitsOf w v).length = w := by
  induction w with
  | zero => rfl
  | succ w ih => rw [bitsOf, List.length_cons, ih]

theorem bitsOf_flag (b : Bool) : bitsOf 1 b.toNat = [b] := by
  cases b <;> rfl

theorem bitsOf_byteOfBits : ∀ b7 b6 b5 b4 b3 b2 b1 b0 : Bool,
    bitsOf 8 (byteOfBits b7 b6 b5 b4 b3 b2 b1 b0).toNat = [b7, b6, b5, b4, b3, b2, b1, b0] := by
  decide

/-- A stream of whole bytes reads back bit by bit. -/
theorem bitsOfBytes_wholeBytes {n : Nat} {bits : List Bool} (h : bits.length = 8 * n) :
    bitsOfBytes (wholeBytes bits) = bits ∧ (wholeBytes bits).length = n := by
  induction n generalizing bits with
  | zero =>
    rw [List.length_eq_zero_iff.mp h]
    exact ⟨rfl, rfl⟩
  | succ n ih =>
    match bits, h with
    | b7 :: b6 :: b5 :: b4 :: b3 :: b2 :: b1 :: b0 :: rest, h =>
      obtain ⟨bytes, count⟩ := ih (bits := rest) (by simp only [List.length_cons] at h; omega)
      have cons : wholeBytes (b7 :: b6 :: b5 :: b4 :: b3 :: b2 :: b1 :: b0 :: rest) =
          byteOfBits b7 b6 b5 b4 b3 b2 b1 b0 :: wholeBytes rest := rfl
      have split (b : Byte) (bs : List Byte) : bitsOfBytes (b :: bs) = bitsOf 8 b.toNat ++ bitsOfBytes bs := rfl
      rw [cons, split, bytes, bitsOf_byteOfBits, List.length_cons, count]
      exact ⟨rfl, rfl⟩
    | [], h | [_], h | [_, _], h | [_, _, _], h | [_, _, _, _], h | [_, _, _, _, _], h | [_, _, _, _, _, _], h
    | [_, _, _, _, _, _, _], h => simp only [List.length_cons, List.length_nil] at h; omega

/-! ### READ_BUDGET (R50) -/

theorem bitsOfFields_budget (s : State) :
    let twos := fun (w : Nat) (v : Int) => (v % 2 ^ w).toNat
    let b := s.budget.pub
    bitsOfFields (budgetFields s) =
      bitsOf 16 b.S ++ bitsOf 15 b.dA ++ bitsOf 15 b.dB ++ bitsOf 13 b.lossMax ++ bitsOf 13 b.M ++ bitsOf 11 b.H ++ bitsOf 16 b.U ++
      bitsOf 17 b.L ++ bitsOf 17 (grantedSum s) ++ [decide (b.N < 0)] ++ bitsOf 16 b.N.natAbs ++ bitsOf 15 b.pA ++
      bitsOf 15 b.pB ++ bitsOf 14 (twos 14 s.budget.cmd.a) ++ bitsOf 14 (twos 14 s.budget.cmd.b) ++
      [s.budget.inputCmd.isSome] ++ bitsOf 13 (s.budget.inputCmd.getD 0) ++ bitsOf 8 b.rh ++ [decide (b.fold = .opened)] ++
      [s.budget.mark] ++ bitsOf 2 (equalizerCode b.eq) ++ [decide (b.eq.bind (fun e => e.2) = some .bToA)] ++ bitsOf 5 b.shed ++
      bitsOf 5 b.granted ++ List.replicate 11 false := by
  simp only [budgetFields, signedField, bitsOfFields_cons, bitsOfFields_nil, bitsOf_flag, List.append_assoc, List.append_nil]
  rfl

/-! ### READ_INPUT (R144) -/

/-- One offer slot, empty or taken (R174). -/
def offerSlot : Option Offer → List (Nat × Nat)
  | none => [(29, 0)]
  | some o => offerFields o

theorem offerSlots_succ (n : Nat) (os : List Offer) : offerSlots (n + 1) os = offerSlot os[0]? ++ offerSlots n os.tail := by
  cases os <;> rfl

theorem offerSlots_six (os : List Offer) :
    offerSlots 6 os = offerSlot os[0]? ++ (offerSlot os[1]? ++ (offerSlot os[2]? ++ (offerSlot os[3]? ++ (offerSlot os[4]? ++
      (offerSlot os[5]? ++ []))))) := by
  simp only [offerSlots_succ, List.getElem?_tail]
  rfl

theorem length_offerSlot (o : Option Offer) : (bitsOfFields (offerSlot o)).length = 29 := by
  cases o with
  | none => rfl
  | some o => cases o <;> simp [offerSlot, offerFields]

theorem length_heldFields (h : Option Held) : (bitsOfFields (heldFields h)).length = 23 := by
  rcases h with _ | ⟨v, i, _ | _ | _⟩ <;> simp [heldFields]

theorem length_proposalFields (c : Option Proposal) : (bitsOfFields (proposalFields c)).length = 24 := by
  cases c <;> simp [proposalFields]

theorem activePort_eq_some (s : State) (p : PortId) : activePort s = some p ↔ s.arb.st = .active p := by
  unfold activePort
  cases s.arb.st <;> simp

theorem bitsOfFields_input (s : State) (p : PortId) :
    let q := s.port.get p
    let slot := fun o => bitsOfFields (offerSlot o)
    bitsOfFields (inputFields s p) =
      bitsOf 4 q.st.code ++ [decide (s.arb.st = .active p)] ++ [s.dieHot] ++ bitsOf 15 q.vin ++ bitsOf 13 q.ie ++
      bitsOfFields (heldFields q.held) ++ bitsOfFields (proposalFields q.prop) ++ slot q.offers[0]? ++ slot q.offers[1]? ++
      slot q.offers[2]? ++ slot q.offers[3]? ++ slot q.offers[4]? ++ slot q.offers[5]? ++ [false] := by
  intro q slot
  have zero : bitsOf 1 0 = [false] := rfl
  simp only [inputFields, offerSlots_six, bitsOfFields_append, bitsOfFields_cons, bitsOfFields_nil, bitsOf_flag, List.append_assoc,
    List.append_nil, activePort_eq_some, zero]
  rfl

theorem length_input (s : State) (p : PortId) : (bitsOfFields (inputFields s p)).length = 8 * 32 := by
  rw [bitsOfFields_input]
  simp only [List.length_append, length_offerSlot, length_heldFields, length_proposalFields, length_bitsOf, List.length_cons,
    List.length_nil]

/-- Settles O40. -/
theorem packedReadsReportTheBlock : Obligations.PackedReadsReportTheBlock := by
  intro s hf twos volt
  refine ⟨next_commandFrame hf (by simp) rfl, ⟨packed (budgetFields s), next_commandFrame hf (by simp) rfl, ?_⟩, fun port _ => ?_⟩
  · have bits := bitsOfFields_budget s
    obtain ⟨back, count⟩ := bitsOfBytes_wholeBytes (n := 32) (bits := bitsOfFields (budgetFields s)) (by
      rw [bits]
      simp only [List.length_append, length_bitsOf, List.length_cons, List.length_nil, List.length_replicate])
    refine ⟨count, (back.trans bits).trans ?_⟩
    have code : equalizerCode s.budget.pub.eq = match s.budget.pub.eq with
          | some (.pending, _) => 1
          | some (.granted, _) => 2
          | some (.waiting _, _) => 3
          | some (.ended _, _) => 0
          | none => 0 := by
      rcases s.budget.pub.eq with _ | ⟨_ | _ | _ | _, _⟩ <;> rfl
    have dir : decide (s.budget.pub.eq.bind (fun e => e.2) = some .bToA) =
        match s.budget.pub.eq with | some (_, some .bToA) => true | _ => false := by
      rcases s.budget.pub.eq with _ | ⟨_, _ | _ | _⟩ <;> rfl
    rw [code, dir] <;> rfl
  · obtain ⟨back, count⟩ := bitsOfBytes_wholeBytes (length_input s port)
    refine ⟨packed (inputFields s port), ?_, count, (back.trans (bitsOfFields_input s port)).trans ?_⟩
    · cases port <;> exact next_commandFrame hf (by simp) rfl
    · have part {a b c d : List Bool} (h : a = b) (g : c = d) : a ++ c = b ++ d := by rw [h, g]
      have slot (o : Option Offer) : bitsOfFields (offerSlot o) = match o with
          | none => List.replicate 29 false
          | some (.fixed v i) => bitsOf 10 (volt v) ++ bitsOf 10 1023 ++ bitsOf 9 (i / 10)
          | some (.range lo hi i) => bitsOf 10 (volt lo) ++ bitsOf 10 (volt hi) ++ bitsOf 9 (i / 10) := by
        rcases o with _ | _ | _ <;> rfl
      refine part (part (part (part (part (part (part (part (part (part (part (part (part ?_ rfl) rfl) rfl) rfl) ?_) ?_) (slot _)) (slot _))
        (slot _)) (slot _)) (slot _)) (slot _)) rfl
      · generalize (s.port.get port).st = st
        rcases st with _ | _ | _ | _ | _ | (_ | _ | _ | _) | _ <;> rfl
      · rcases (s.port.get port).held with _ | ⟨v, i, _ | _ | _⟩ <;> rfl
      · cases (s.port.get port).prop <;> rfl

/-! ### READ_CELL (R87) -/

theorem derate_fraction_le {l : Limits} (h : l.Fits) (z : Zone) : (l.derate.row z).charge ≤ 256 ∧ (l.derate.row z).discharge ≤ 256 := by
  have row := h.derate z
  simp only [derateRowOk, Bool.and_eq_true, decide_eq_true_eq] at row
  exact ⟨row.1.1, row.2⟩

/-- A fraction of 256ths of a current. -/
theorem mul_div_256_le {a c : Nat} (b : Nat) (ha : a ≤ b) (hc : c ≤ 256) : a * c / 256 ≤ b := by
  have := Nat.mul_le_mul ha hc
  omega

theorem kneeLimit_le (l : Limits) (s idis : Nat) : kneeLimit l s idis ≤ idis := by
  unfold kneeLimit
  split
  · next h =>
    refine Nat.div_le_of_le_mul ?_
    rw [Nat.mul_comm]
    exact Nat.mul_le_mul_right _ h.2.le
  · exact le_rfl

theorem disLimit_le {s : State} (h : s.lim.Fits) (x : Cell) : disLimit s x ≤ 6000 := by
  have rated : s.lim.disRated.get x ≤ 6000 := (h.item (.disRated x)).2
  unfold disLimit
  split
  · omega
  · next r _ =>
    have zone := mul_div_256_le 6000 rated (derate_fraction_le h r.zone).2
    have knee := kneeLimit_le s.lim (socOf s.lim x r.count) (s.lim.disRated.get x * (s.lim.derate.row r.zone).discharge / 256)
    dsimp only
    split
    · split <;> omega
    · omega

theorem chgCeiling_le {s : State} (h : s.lim.Fits) (x : Cell) : chgCeiling s x ≤ 6000 := by
  have pre : s.lim.preI.get x ≤ 500 := (h.item (.preI x)).2
  have fast : s.lim.fastI.get x ≤ 6000 := (h.item (.fastI x)).2
  have zone : (derateOf s x).charge ≤ 256 := by
    unfold derateOf
    split
    · exact (derate_fraction_le h _).1
    · exact Nat.zero_le _
  have byZone := mul_div_256_le 6000 fast zone
  unfold chgCeiling
  split <;> omega

theorem branchByte_bits (b : Branch) :
    let n := unsignedOf [branchByte b]
    n / 64 = b.state.code ∧ n.testBit 3 = b.overcurrent ∧ n.testBit 2 = b.chgOvercurrent ∧ n.testBit 1 = b.overtemp ∧
      n.testBit 0 = b.cutoff := by
  have bits : ∀ (st : Fin 4) (a3 a2 a1 a0 : Bool),
      let n := unsignedOf [BitVec.ofNat 8 (st.val * 64 + a3.toNat * 8 + a2.toNat * 4 + a1.toNat * 2 + a0.toNat)]
      n / 64 = st.val ∧ n.testBit 3 = a3 ∧ n.testBit 2 = a2 ∧ n.testBit 1 = a1 ∧ n.testBit 0 = a0 := by
    decide
  have code : b.state.code < 4 := by cases b.state <;> decide
  exact bits ⟨b.state.code, code⟩ b.overcurrent b.chgOvercurrent b.overtemp b.cutoff

theorem cellFlags_bits (m : Monitor) :
    let n := unsignedOf [cellFlags m]
    n.testBit 7 = m.rd.isSome ∧ n.testBit 6 = (m.rd.isSome && m.lastFailed) ∧ n.testBit 5 = m.estimated ∧
      n.testBit 4 = m.rd.any fun r => r.farOt := by
  have bits : ∀ a7 a6 a5 a4 : Bool,
      let n := unsignedOf [BitVec.ofNat 8 (a7.toNat * 128 + a6.toNat * 64 + a5.toNat * 32 + a4.toNat * 16)]
      n.testBit 7 = a7 ∧ n.testBit 6 = a6 ∧ n.testBit 5 = a5 ∧ n.testBit 4 = a4 := by
    decide
  exact bits _ _ _ _

theorem length_readingBytes (l : Limits) (x : Cell) (r : Option Reading) : (readingBytes l x r).length = 13 := by
  cases r <;> simp [readingBytes, signedBytesOf]

/-- The cell answer after the readings (R174). -/
def cellTail (s : State) (x : Cell) : List Byte :=
  bytesOf 2 (s.lim.cap.get x) ++ bytesOf 2 (disLimit s x) ++ [branchByte (s.br.get x), phaseByte (s.chg.get x).phase] ++
    bytesOf 2 (chgCeiling s x) ++ signedBytesOf 2 (s.budget.cmd.get x)

theorem cellBytes_eq (s : State) (x : Cell) :
    cellBytes s x = cellCode x :: cellFlags (s.mon.get x) :: (dataStateOf s x).code :: (readingBytes s.lim x (readingOf s x) ++ cellTail s x) := by
  simp only [cellBytes, cellTail, List.append_assoc, List.cons_append, List.nil_append]

theorem drop_cellBytes (s : State) (x : Cell) : (cellBytes s x).drop 16 = cellTail s x := by
  rw [cellBytes_eq]
  exact List.drop_left' (length_readingBytes ..)

theorem length_cellBytes (s : State) (x : Cell) : (cellBytes s x).length = 26 := by
  have tail : (cellTail s x).length = 10 := rfl
  rw [cellBytes_eq]
  simp only [List.length_cons, List.length_append, length_readingBytes, tail]

theorem fieldAt_cellTail (s : State) (x : Cell) (j n : Nat) : fieldAt (cellBytes s x) (16 + j) n = fieldAt (cellTail s x) j n := by
  rw [fieldAt, fieldAt, ← List.drop_drop, drop_cellBytes]

theorem signedAt_cellTail (s : State) (x : Cell) (j n : Nat) : signedAt (cellBytes s x) (16 + j) n = signedAt (cellTail s x) j n := by
  rw [signedAt, signedAt, fieldAt_cellTail]

theorem soc_le_of_countsOk {s : State} {x : Cell} {r : Reading} (h : countsOk s) (hr : readingOf s x = some r) :
    socOf s.lim x r.count ≤ 1000 := by
  have both : countOk s x = true := by
    obtain ⟨ha, hb⟩ := Bool.and_eq_true_iff.mp h
    cases x
    · exact ha
    · exact hb
  rw [countOk, hr, Option.all_some, Bool.and_eq_true, decide_eq_true_eq, decide_eq_true_eq] at both
  exact both.2

/-- Settles O41: the answer in three parts, the head, the readings and what follows them. -/
theorem readCellReportsTheCell : Obligations.ReadCellReportsTheCell := by
  intro s x hf hcount hread hl hcmd hdis hchg
  have fits := (limitsOk_iff _).mp hl
  obtain ⟨f7, f6, f5, f4⟩ := cellFlags_bits (s.mon.get x)
  obtain ⟨b6, b3, b2, b1, b0⟩ := branchByte_bits (s.br.get x)
  have cap : s.lim.cap.get x ≤ 8000 := (fits.item (.cap x)).2
  have dis := disLimit_le fits x
  have ceiling := chgCeiling_le fits x
  obtain ⟨cmdLo, cmdHi⟩ := ((commandOk_iff s x).mp ((commandsOk_iff s).mp hcmd x)).1
  have code : fieldAt (cellTail s x) 4 1 = unsignedOf [branchByte (s.br.get x)] := rfl
  refine ⟨cellBytes s x, ?_, length_cellBytes s x, ?_, f7, f6, f5, ?_, fun hr => ?_, fun r hr => ?_,
    (fieldAt_cellTail s x 0 2).trans (fieldAt_of_bytesOf rfl (by omega)),
    (fieldAt_cellTail s x 2 2).trans ((fieldAt_of_bytesOf rfl (by omega)).trans (idis_eq s x).symm),
    ?_, by rw [fieldAt_cellTail s x 4, code, b3], by rw [fieldAt_cellTail s x 4, code, b2], by rw [fieldAt_cellTail s x 4, code, b1],
    by rw [fieldAt_cellTail s x 4, code, b0], ?_,
    (fieldAt_cellTail s x 6 2).trans ((fieldAt_of_bytesOf rfl (by omega)).trans (ichg_eq s x).symm),
    (signedAt_cellTail s x 8 2).trans (signedAt_of_signedBytesOf rfl (by omega) (by omega))⟩
  · cases x <;> exact next_commandFrame hf (by simp) rfl
  · cases x <;> rfl
  · cases x
    · rfl
    · change unsignedOf [s.hinge.dataState.code] = _
      cases s.hinge.dataState <;> rfl
  · rw [drop_cellBytes, cellBytes_eq, hr]
    rfl
  · have count : r.count ≤ s.lim.cap.get x * 3600000 := (countsOk_iff s).mp hcount x r hr
    have level := soc_le_of_countsOk hcount hr
    have range := ((readingsOk_iff s).mp hread).1 x r hr
    simp only [readingOk, Bool.and_eq_true, decide_eq_true_eq] at range
    have some : cellBytes s x = cellCode x :: cellFlags (s.mon.get x) :: (dataStateOf s x).code ::
        (readingBytes s.lim x (.some r) ++ cellTail s x) := by
      rw [cellBytes_eq, hr]
    have far : (s.mon.get x).rd.any (fun r => r.farOt) = r.farOt := by
      have : (s.mon.get x).rd = .some r := hr
      rw [this]
      rfl
    have flags : fieldAt (cellBytes s x) 1 1 = unsignedOf [cellFlags (s.mon.get x)] := rfl
    refine ⟨by rw [flags, f4, far], ?_⟩
    rw [some]
    refine ⟨fieldAt_of_bytesOf rfl (by omega), signedAt_of_signedBytesOf rfl (by omega) (by omega),
      signedAt_of_signedBytesOf rfl (by omega) (by omega), ?_, fieldAt_of_bytesOf rfl (by omega),
      fieldAt_of_bytesOf (v := socOf s.lim x r.count) rfl (by omega)⟩
    have zone (p : List Byte) : fieldAt (cellCode x :: cellFlags (s.mon.get x) :: (dataStateOf s x).code ::
        (readingBytes s.lim x (.some r) ++ p)) 8 1 = unsignedOf [r.zone.code] := rfl
    rw [zone]
    cases r.zone <;> rfl
  · rw [fieldAt_cellTail s x 4, code, b6]
    have state : branchState s x = (s.br.get x).state := rfl
    rw [state]
    cases (s.br.get x).state <;> rfl
  · rw [fieldAt_cellTail s x 5]
    have byte : fieldAt (cellTail s x) 5 1 = unsignedOf [phaseByte (s.chg.get x).phase] := rfl
    rw [byte]
    rcases (s.chg.get x).phase with _ | _ | _ | _ | _ | _ | (_ | _ | _) <;> rfl

end Sys2Proof.Machine
end

section
/-! Branch protection: ISOLATE_CELL, CLEAR_FAULT, and the tests of an accepted sample (6.1 to 6.4). -/

namespace Sys2Proof.Machine

/-! ### A branch moved (R105, R106) -/

/-- A branch moved, with the pass request and the zeroed command each under its own condition. -/
theorem moveBranch_moved (x : Cell) (b : Branch) (s : State) :
    moveBranch x b s =
      { s with
        br := s.br.set x b
        budget :=
          { (if b.state = (s.br.get x).state then s.budget else (withRequest s).budget) with
            cmd := if b.state ≠ (s.br.get x).state ∧ b.state.forbids (s.budget.cmd.get x) then s.budget.cmd.set x 0
              else s.budget.cmd } } := by
  rw [moveBranch_eq]
  by_cases h : b.state = (s.br.get x).state
  · have same : b.state = branchState s x := h
    rw [if_pos same, if_pos h, if_neg fun hf => hf.1 h]
  · have moved : ¬b.state = branchState s x := h
    rw [if_neg moved, if_neg h]
    by_cases hf : b.state.forbids (s.budget.cmd.get x) = true
    · rw [if_pos hf, if_pos ⟨h, hf⟩]
    · rw [if_neg hf, if_neg fun hm => hf hm.2]

theorem branchState_eq (s : State) (x : Cell) :
    branchState s x = if (s.br.get x).isolated then .openIsolated
      else if (s.br.get x).overcurrent ∨ (s.br.get x).chgOvercurrent ∨ (s.br.get x).overtemp then .openFault
      else if (s.br.get x).cutoff then .chargeOnly
      else .closed := by
  simp [branchState, Branch.state, or_assoc]

theorem isFault_iff (p : Phase) : p.isFault = true ↔ ∃ f, p = .fault f := by
  cases p <;> simp [Phase.isFault]

theorem withPhase_cmd (x : Cell) (c : Charge) (s : State) : (withPhase x c s).budget.cmd = s.budget.cmd := by
  unfold withPhase
  dsimp only
  split <;> rfl

/-! ### ISOLATE_CELL and CLEAR_FAULT (R112, R113) -/

/-- Settles O56. -/
theorem isolateCellAndClearFaultMoveTheBranch : Obligations.IsolateCellAndClearFaultMoveTheBranch := by
  intro s x hf b byte moved faulted
  have isolate (on : Bool) (v : Byte) (hv : onOffOfByte v = some on) :
      exec (.isolateCell [byte, v]) s = .next (answered (moved { b with isolated := on } (afterEdges s)) .done []) := by
    have row (r : Result) (h : isolateCellCmd [byte, v] (afterEdges s) = r) :
        exec (.isolateCell [byte, v]) s = .next (answered r.st r.out r.payload) := next_commandFrame hf (by simp) h
    refine row ⟨_, _, _⟩ ?_
    have args : cellOnOff [byte, v] = some (x, on) := by
      cases x <;> simp [cellOnOff, byte, cellOfByte, hv]
    rw [isolateCellCmd, args]
    dsimp only
    rw [moveBranch_moved]
    rfl
  have clear (r : Result) (h : clearFaultCmd [byte] (afterEdges s) = r) :
      exec (.clearFault [byte]) s = .next (answered r.st r.out r.payload) := next_commandFrame hf (by simp) h
  have cell : cellArg [byte] = some x := by cases x <;> rfl
  have found : faultToClear (afterEdges s) x = true ↔ (b.overcurrent = true ∨ b.chgOvercurrent = true) ∨ faulted := by
    refine Iff.trans ?_ (or_congr_right (isFault_iff (s.chg.get x).phase))
    rw [← Bool.or_eq_true, ← Bool.or_eq_true]
    rfl
  have cleared (hc : (b.overcurrent = true ∨ b.chgOvercurrent = true) ∨ faulted) :
      exec (.clearFault [byte]) s = .next (answered (dropCauses x (clearChgFault x (afterEdges s))) .done []) := by
    refine clear ⟨_, _, _⟩ ?_
    rw [clearFaultCmd, cell]
    dsimp only
    rw [if_pos (found.mpr hc)]
    rfl
  refine ⟨branchState_eq s x, isolate true 1 rfl, isolate false 0 rfl, fun ho hc hn => clear ⟨_, _, _⟩ ?_, fun h => ?_, fun h hn => ?_⟩
  · have none : ¬faultToClear (afterEdges s) x = true := by
      rw [found, ho, hc]
      simp [hn]
    rw [clearFaultCmd, cell]
    dsimp only
    rw [if_neg none]
    rfl
  · have fault : ((afterEdges s).chg.get x).phase.isFault = true := (isFault_iff _).mpr h
    have off : clearChgFault x (afterEdges s) = withPhase x { s.chg.get x with phase := .off, session := none, termRun := 0 } (afterEdges s) := by
      rw [clearChgFault, if_pos fault, enterOff, moveCharge_eq]
      rfl
    rw [cleared (.inr h), off, dropCauses, moveBranch_moved, withPhase_cmd]
    rfl
  · have fault : ¬((afterEdges s).chg.get x).phase.isFault = true := fun hp => hn ((isFault_iff _).mp hp)
    have kept : clearChgFault x (afterEdges s) = afterEdges s := if_neg fault
    rw [cleared (.inl h), kept, dropCauses, moveBranch_moved]
    rfl

/-! ### The tests of an accepted sample (R107 to R111) -/

/-- The branch state from its five items (R105). -/
def itemsState (isolated oc coc hot cut : Bool) : BranchState :=
  if isolated then .openIsolated else if oc || coc || hot then .openFault else if cut then .chargeOnly else .closed

/-- A branch that stood at `first` and has moved to `mid` may go on to `last` as one move from `first` would: either it has not left
`first`, or it stays, or it only leaves the open state, where the command is 0. -/
def Follows (first mid last : BranchState) : Prop := mid = first ∨ last = mid ∨ (first = .openFault ∧ last ≠ .openFault)

/-- Branch protection of a cell with its items, the monitors and the latched flags worked anew: one move from where it stood (R106). -/
def branchWorked (x : Cell) (s : State) (b : Branch) (mon : PerCell Monitor) (flags : BitVec 26) : State :=
  { s with
    br := s.br.set x b
    mon := mon
    budget :=
      { (if b.state = (s.br.get x).state then s.budget else (withRequest s).budget) with
        cmd := if b.state ≠ (s.br.get x).state ∧ b.state.forbids (s.budget.cmd.get x) then s.budget.cmd.set x 0 else s.budget.cmd }
    cond := { s.cond with latched := s.cond.latched ||| flags } }

section
variable {x : Cell} {s : State} {b c : Branch} {mon : PerCell Monitor} {flags : BitVec 26}

theorem branchWorked_self : branchWorked x s (s.br.get x) s.mon 0 = s := by
  have flags : s.cond.latched ||| 0 = s.cond.latched := BitVec.or_zero
  rw [branchWorked, if_pos rfl, if_neg fun h => h.1 rfl, PerCell.set_get_self, flags]

@[simp] theorem branchWorked_branch : (branchWorked x s b mon flags).br.get x = b := PerCell.get_set_self ..

@[simp] theorem branchWorked_lim : (branchWorked x s b mon flags).lim = s.lim := rfl

theorem latch_branchWorked (f : Condition) (bits : BitVec 26) (hf : ∀ t, latch f t = latchedWith bits t) :
    latch f (branchWorked x s b mon flags) = branchWorked x s b mon (flags ||| bits) := by
  rw [hf]
  simp only [latchedWith, branchWorked, BitVec.or_assoc]

theorem putBranch_branchWorked (h : c.state = b.state) : putBranch x c (branchWorked x s b mon flags) = branchWorked x s c mon flags := by
  simp only [putBranch, branchWorked, PerCell.set_set_self, h]

theorem anchorCount_branchWorked : anchorCount x 0 (branchWorked x s b s.mon flags) = branchWorked x s b (withCount x 0 s).mon flags := by
  rw [anchorCount_eq]
  rfl

/-- While the branch state stands as it was, the budget unit is not touched. -/
theorem branchWorked_of_same (h : b.state = (s.br.get x).state) : branchWorked x s b mon flags =
    { s with br := s.br.set x b, mon := mon, cond := { s.cond with latched := s.cond.latched ||| flags } } := by
  rw [branchWorked, if_pos h, if_neg fun hm => hm.1 h]

/-- From the open state the command is 0, so that a move requests a pass and does nothing else to the budget unit. -/
theorem branchWorked_of_idle (h : s.budget.cmd.get x = 0) (hb : b.state ≠ (s.br.get x).state) : branchWorked x s b mon flags =
    { s with
      br := s.br.set x b, mon := mon, budget := (withRequest s).budget
      cond := { s.cond with latched := s.cond.latched ||| flags } } := by
  have allowed : ¬(b.state ≠ (s.br.get x).state ∧ b.state.forbids (s.budget.cmd.get x) = true) := by
    rw [h]
    rintro ⟨-, hf⟩
    revert hf
    cases b.state <;> decide
  rw [branchWorked, if_neg hb, if_neg allowed]
  rfl

/-- A move after a move, as one. -/
theorem moveBranch_branchWorked (h : (s.br.get x).state.forbids (s.budget.cmd.get x) = false)
    (hf : Follows (s.br.get x).state b.state c.state) :
    moveBranch x c (branchWorked x s b mon flags) = branchWorked x s c mon flags := by
  have stays (hc : c.state = b.state) : moveBranch x c (branchWorked x s b mon flags) = branchWorked x s c mon flags := by
    have same : c.state = branchState (branchWorked x s b mon flags) x := by rw [branchState, branchWorked_branch, hc]
    have put : moveBranch x c (branchWorked x s b mon flags) = putBranch x c (branchWorked x s b mon flags) := if_pos same
    rw [put, putBranch_branchWorked hc]
  have first (hb : b.state = (s.br.get x).state) : moveBranch x c (branchWorked x s b mon flags) = branchWorked x s c mon flags := by
    rw [branchWorked_of_same hb, moveBranch_moved]
    simp only [PerCell.get_set_self, PerCell.set_set_self, hb]
    rfl
  rcases hf with hb | hc | ⟨hopen, hc⟩
  · exact first hb
  · exact stays hc
  · have idle : s.budget.cmd.get x = 0 := by
      rw [hopen] at h
      simpa [BranchState.forbids] using h
    by_cases hb : b.state = (s.br.get x).state
    · exact first hb
    · by_cases hcb : c.state = b.state
      · exact stays hcb
      · have left : c.state ≠ (s.br.get x).state := by rwa [hopen]
        have allowed : c.state.forbids 0 = false := by cases c.state <;> rfl
        rw [branchWorked_of_idle idle hb, branchWorked_of_idle idle left, moveBranch_moved]
        simp only [PerCell.get_set_self, PerCell.set_set_self, hcb, if_false, withRequest_budget, idle, allowed]
        simp

/-! #### The tests as moves -/

/-- A flag for a cause that is new. -/
def causeFlag (x : Cell) (new : Bool) : BitVec 26 := if new then cellFlag x 0x10000#26 else 0

theorem or_causeFlag_false : flags ||| causeFlag x false = flags := BitVec.or_zero

theorem tripDischarge_branchWorked (h : (s.br.get x).state.forbids (s.budget.cmd.get x) = false)
    (hf : Follows (s.br.get x).state b.state { b with overcurrent := true, disRun := 0 }.state) :
    tripDischarge x (branchWorked x s b mon flags) =
      branchWorked x s { b with overcurrent := true, disRun := 0 } mon (flags ||| causeFlag x (!b.overcurrent)) := by
  unfold tripDischarge
  rw [branchWorked_branch]
  dsimp only
  cases ho : b.overcurrent with
  | true =>
    have same : { b with disRun := 0 } = ({ b with overcurrent := true, disRun := 0 } : Branch) := by rw [← ho]
    rw [if_pos rfl, ← same, putBranch_branchWorked (by rfl), Bool.not_true, or_causeFlag_false]
  | false =>
    rw [if_neg (by simp), moveBranch_branchWorked h hf, latch_branchWorked _ _ (latch_branchFault x)]
    rfl

theorem tripCharge_branchWorked (h : (s.br.get x).state.forbids (s.budget.cmd.get x) = false)
    (hf : Follows (s.br.get x).state b.state { b with chgOvercurrent := true, chgRun := 0 }.state) :
    tripCharge x (branchWorked x s b mon flags) =
      branchWorked x s { b with chgOvercurrent := true, chgRun := 0 } mon (flags ||| causeFlag x (!b.chgOvercurrent)) := by
  unfold tripCharge
  rw [branchWorked_branch]
  dsimp only
  cases ho : b.chgOvercurrent with
  | true =>
    have same : { b with chgRun := 0 } = ({ b with chgOvercurrent := true, chgRun := 0 } : Branch) := by rw [← ho]
    rw [if_pos rfl, ← same, putBranch_branchWorked (by rfl), Bool.not_true, or_causeFlag_false]
  | false =>
    rw [if_neg (by simp), moveBranch_branchWorked h hf, latch_branchWorked _ _ (latch_branchFault x)]
    rfl

theorem tripCutoff_branchWorked (h : (s.br.get x).state.forbids (s.budget.cmd.get x) = false)
    (hf : Follows (s.br.get x).state b.state { b with cutoff := true, cutRun := 0 }.state) :
    tripCutoff x (branchWorked x s b s.mon flags) =
      branchWorked x s { b with cutoff := true, cutRun := 0 } (withCount x 0 s).mon (flags ||| cellFlag x 0x100000#26) := by
  unfold tripCutoff
  rw [branchWorked_branch, moveBranch_branchWorked h hf, anchorCount_branchWorked, latch_branchWorked _ _ (latch_cutoff x)]

/-- R108 on a branch that has been worked. -/
theorem dischargeTest_branchWorked (i : Int) (h : (s.br.get x).state.forbids (s.budget.cmd.get x) = false)
    (hf : Follows (s.br.get x).state b.state { b with overcurrent := true, disRun := 0 }.state) :
    let above := s.lim.hardDisI.get x < (-i).toNat ∨ i ≤ -8000
    let trips := above ∧ s.lim.hardCount ≤ b.disRun + 1
    dischargeTest x i (branchWorked x s b mon flags) = branchWorked x s
      { b with overcurrent := b.overcurrent || decide trips, disRun := if above then (if trips then 0 else b.disRun + 1) else 0 } mon
      (flags ||| causeFlag x (decide trips && !b.overcurrent)) := by
  intro above trips
  have isOver : dischargeOver x i (branchWorked x s b mon flags) = true ↔ above := by
    rw [dischargeOver, Bool.or_eq_true, decide_eq_true_eq, decide_eq_true_eq]
    rfl
  unfold dischargeTest
  rw [branchWorked_branch, branchWorked_lim]
  dsimp only
  by_cases ho : above
  · rw [if_pos (isOver.mpr ho), if_pos ho]
    by_cases hn : s.lim.hardCount ≤ b.disRun + 1
    · rw [if_pos ⟨by omega, hn⟩, if_pos (show trips from ⟨ho, hn⟩), tripDischarge_branchWorked h hf,
        decide_eq_true (show trips from ⟨ho, hn⟩), Bool.or_true, Bool.true_and]
    · have no : ¬trips := fun ht => hn ht.2
      rw [if_neg fun ht => hn ht.2, if_neg no, putBranch_branchWorked (by rfl), decide_eq_false no, Bool.or_false, Bool.false_and,
        or_causeFlag_false]
  · have no : ¬trips := fun ht => ho ht.1
    rw [if_neg (isOver.not.mpr ho), if_neg (by omega), if_neg ho, putBranch_branchWorked (by rfl), decide_eq_false no, Bool.or_false,
      Bool.false_and, or_causeFlag_false]

/-- R109 on a branch that has been worked; a branch that moved did so at a discharge. -/
theorem chargeTest_branchWorked {i : Int} (h : (s.br.get x).state.forbids (s.budget.cmd.get x) = false)
    (hf : Follows (s.br.get x).state b.state { b with chgOvercurrent := true, chgRun := 0 }.state)
    (hi : b.state ≠ (s.br.get x).state → i ≤ 0) :
    let above := ((s.budget.cmd.get x).toNat : Int) + 500 < i
    let trips := above ∧ s.lim.hardCount ≤ b.chgRun + 1
    chargeTest x i (branchWorked x s b mon flags) = branchWorked x s
      { b with chgOvercurrent := b.chgOvercurrent || decide trips, chgRun := if above then (if trips then 0 else b.chgRun + 1) else 0 }
      mon (flags ||| causeFlag x (decide trips && !b.chgOvercurrent)) := by
  intro above trips
  have isOver : (chargeCommand (branchWorked x s b mon flags) x : Int) + 500 < i ↔ above := by
    by_cases hb : b.state = (s.br.get x).state
    · rw [branchWorked_of_same hb]
      rfl
    · have := hi hb
      simp only [above]
      omega
  unfold chargeTest
  rw [branchWorked_branch, branchWorked_lim]
  dsimp only
  by_cases ho : above
  · rw [if_pos (isOver.mpr ho), if_pos ho]
    by_cases hn : s.lim.hardCount ≤ b.chgRun + 1
    · rw [if_pos ⟨by omega, hn⟩, if_pos (show trips from ⟨ho, hn⟩), tripCharge_branchWorked h hf,
        decide_eq_true (show trips from ⟨ho, hn⟩), Bool.or_true, Bool.true_and]
    · have no : ¬trips := fun ht => hn ht.2
      rw [if_neg fun ht => hn ht.2, if_neg no, putBranch_branchWorked (by rfl), decide_eq_false no, Bool.or_false, Bool.false_and,
        or_causeFlag_false]
  · have no : ¬trips := fun ht => ho ht.1
    rw [if_neg (isOver.not.mpr ho), if_neg (by omega), if_neg ho, putBranch_branchWorked (by rfl), decide_eq_false no, Bool.or_false,
      Bool.false_and, or_causeFlag_false]

/-- R110 on a branch that has been worked. -/
theorem overtempTest_branchWorked (t : Int) (h : (s.br.get x).state.forbids (s.budget.cmd.get x) = false)
    (hset : Follows (s.br.get x).state b.state { b with overtemp := true }.state)
    (hend : b.overtemp = true → Follows (s.br.get x).state b.state { b with overtemp := false }.state) :
    let hot := if 65 ≤ t then true else if t ≤ 60 then false else b.overtemp
    overtempTest x t (branchWorked x s b mon flags) =
      branchWorked x s { b with overtemp := hot } mon (flags ||| causeFlag x (hot && !b.overtemp)) := by
  unfold overtempTest
  rw [branchWorked_branch]
  dsimp only
  have same {v : Bool} (hv : b.overtemp = v) : branchWorked x s b mon flags = branchWorked x s { b with overtemp := v } mon flags := by
    rw [← hv]
  by_cases h65 : 65 ≤ t
  · rw [if_pos h65]
    cases ho : b.overtemp with
    | true => rw [if_neg (by simp), if_neg (by omega), Bool.not_true, Bool.and_false, or_causeFlag_false, same ho]
    | false =>
      rw [if_pos ⟨h65, rfl⟩, moveBranch_branchWorked h hset, latch_branchWorked _ _ (latch_branchFault x)]
      rfl
  · rw [if_neg h65, if_neg fun hc => h65 hc.1]
    by_cases h60 : t ≤ 60
    · rw [if_pos h60, Bool.false_and, or_causeFlag_false]
      cases ho : b.overtemp with
      | true => rw [if_pos ⟨h60, rfl⟩, moveBranch_branchWorked h (hend ho)]
      | false => rw [if_neg (by simp), same ho]
    · rw [if_neg h60, if_neg fun hc => h60 hc.1, Bool.and_not_self, or_causeFlag_false]

/-- R111 on a branch that has been worked. -/
theorem cutoffTest_branchWorked (v : Nat) (h : (s.br.get x).state.forbids (s.budget.cmd.get x) = false)
    (hf : b.state = .closed → Follows (s.br.get x).state b.state { b with cutoff := true, cutRun := 0 }.state) :
    let low := if b.state = .closed ∧ v < s.lim.cutoffV then b.cutRun + 1 else 0
    cutoffTest x v (branchWorked x s b s.mon flags) = branchWorked x s
      { b with cutoff := b.cutoff || decide (3 ≤ low), cutRun := if 3 ≤ low then 0 else low }
      (if 3 ≤ low then (withCount x 0 s).mon else s.mon) (flags ||| if 3 ≤ low then cellFlag x 0x100000#26 else 0) := by
  intro low
  have counted : (if branchState (branchWorked x s b s.mon flags) x = .closed ∧ v < s.lim.cutoffV then b.cutRun + 1 else 0) = low := by
    rw [branchState, branchWorked_branch]
  unfold cutoffTest
  rw [branchWorked_branch, branchWorked_lim]
  dsimp only
  rw [counted]
  by_cases hl : 3 ≤ low
  · have closed : b.state = .closed := by
      by_contra hc
      have : low = 0 := if_neg fun h => hc h.1
      omega
    rw [if_pos hl, if_pos hl, if_pos hl, if_pos hl, tripCutoff_branchWorked h (hf closed), decide_eq_true hl, Bool.or_true]
  · have none : flags ||| 0 = flags := BitVec.or_zero
    rw [if_neg hl, if_neg hl, if_neg hl, if_neg hl, putBranch_branchWorked (by rfl), decide_eq_false hl, Bool.or_false, none]

theorem cutoffRelease_branchWorked (v : Nat) (h : (s.br.get x).state.forbids (s.budget.cmd.get x) = false)
    (hf : b.cutoff = true → s.lim.cutoffV + 200 ≤ v → Follows (s.br.get x).state b.state { b with cutoff := false }.state) :
    cutoffRelease x v (branchWorked x s b mon flags) =
      branchWorked x s { b with cutoff := if s.lim.cutoffV + 200 ≤ v then false else b.cutoff } mon flags := by
  unfold cutoffRelease
  rw [branchWorked_branch, branchWorked_lim]
  dsimp only
  by_cases hv : s.lim.cutoffV + 200 ≤ v
  · rw [if_pos hv]
    cases hc : b.cutoff with
    | true => rw [if_pos ⟨rfl, hv⟩, moveBranch_branchWorked h (hf hc hv)]
    | false =>
      rw [if_neg (by simp)]
      rw [← hc]
  · rw [if_neg hv, if_neg fun hc => hv hc.2]

end

/-! #### The five tests in their order -/

/-- Each test's move in the order of the rules, from the items before the sample: a cause is only added, but that overtemperature ends
and cutoff is released. -/
theorem follows_charge : ∀ iso oc coc hot cut new : Bool,
    Follows (itemsState iso oc coc hot cut) (itemsState iso (oc || new) coc hot cut) (itemsState iso (oc || new) true hot cut) := by
  unfold Follows
  decide

theorem follows_hot : ∀ iso oc coc hot cut new new' : Bool,
    Follows (itemsState iso oc coc hot cut) (itemsState iso (oc || new) (coc || new') hot cut)
      (itemsState iso (oc || new) (coc || new') true cut) := by
  unfold Follows
  decide

theorem follows_cooled : ∀ iso oc coc hot cut new new' : Bool, hot = true →
    Follows (itemsState iso oc coc hot cut) (itemsState iso (oc || new) (coc || new') hot cut)
      (itemsState iso (oc || new) (coc || new') false cut) := by
  unfold Follows
  decide

theorem follows_cutoff : ∀ iso oc coc hot cut new new' hot' : Bool, itemsState iso (oc || new) (coc || new') hot' cut = .closed →
    Follows (itemsState iso oc coc hot cut) (itemsState iso (oc || new) (coc || new') hot' cut)
      (itemsState iso (oc || new) (coc || new') hot' true) := by
  unfold Follows
  decide

theorem follows_release : ∀ iso oc coc hot cut new new' hot' : Bool, cut = true →
    Follows (itemsState iso oc coc hot cut) (itemsState iso (oc || new) (coc || new') hot' cut)
      (itemsState iso (oc || new) (coc || new') hot' false) := by
  unfold Follows
  decide

theorem itemsState_of_no_trip : ∀ iso oc coc hot cut : Bool,
    itemsState iso oc coc hot cut = .closed ↔ (!iso && !oc && !coc && !hot && !cut) = true := by
  decide

theorem causeFlag_or (x : Cell) (f g : Bool) : causeFlag x f ||| causeFlag x g = causeFlag x (f || g) := by
  cases f <;> cases g <;> simp [causeFlag]

/-- Settles O55: the five tests as one move from where the branch stood. -/
theorem branchTestsMoveItemsAndRuns : Obligations.BranchTestsMoveItemsAndRuns := by
  intro s x r hr h b worked emptied faultFlag cutoffFlag disOver disTrips chgOver chgTrips hot oc coc closed low
  have forbids : (s.br.get x).state.forbids (s.budget.cmd.get x) = false := h
  have start : branchWorked x s b s.mon 0 = s := branchWorked_self
  have unmoved (c : BranchState) : Follows (s.br.get x).state b.state c := .inl rfl
  have some : (readingOf s x).isSome = true := by rw [hr]; rfl
  have none (f : BitVec 26) : 0 ||| f = f := BitVec.zero_or
  have flag (c : Bool) : causeFlag x (!c) = if c then 0 else faultFlag := by cases c <;> rfl
  refine ⟨?_, ?_, ?_, ?_, ?_⟩
  · have tests : branchSlot x true s = branchTests x r.v r.i r.t s := by
      rw [branchSlot, hr]
      rfl
    let b1 : Branch := { b with overcurrent := oc, disRun := if disOver then (if disTrips then 0 else b.disRun + 1) else 0 }
    let b2 : Branch := { b1 with chgOvercurrent := coc, chgRun := if chgOver then (if chgTrips then 0 else b.chgRun + 1) else 0 }
    let b3 : Branch := { b2 with overtemp := hot }
    let b4 : Branch := { b3 with cutoff := b.cutoff || decide (3 ≤ low), cutRun := if 3 ≤ low then 0 else low }
    let f1 := causeFlag x (decide disTrips && !b.overcurrent)
    let f2 := causeFlag x (decide chgTrips && !b.chgOvercurrent)
    let f3 := causeFlag x (hot && !b.overtemp)
    have first : dischargeTest x r.i s = branchWorked x s b1 s.mon f1 := by
      have test : dischargeTest x r.i (branchWorked x s b s.mon 0) = branchWorked x s b1 s.mon (0 ||| f1) :=
        dischargeTest_branchWorked r.i forbids (unmoved _)
      rwa [start, none] at test
    have atDischarge : b1.state ≠ (s.br.get x).state → r.i ≤ 0 := by
      intro hmoved
      by_contra hpos
      have no : ¬disTrips := by
        rintro ⟨hover | hover, -⟩
        · have : (-r.i).toNat = 0 := by omega
          omega
        · omega
      have kept : oc = b.overcurrent := by
        simp only [oc]
        rw [decide_eq_false no, Bool.or_false]
      refine hmoved ?_
      change itemsState b.isolated oc b.chgOvercurrent b.overtemp b.cutoff = b.state
      rw [kept]
      rfl
    have second : chargeTest x r.i (branchWorked x s b1 s.mon f1) = branchWorked x s b2 s.mon (f1 ||| f2) :=
      chargeTest_branchWorked forbids
        (follows_charge b.isolated b.overcurrent b.chgOvercurrent b.overtemp b.cutoff (decide disTrips)) atDischarge
    have third : overtempTest x r.t (branchWorked x s b2 s.mon (f1 ||| f2)) = branchWorked x s b3 s.mon (f1 ||| f2 ||| f3) :=
      overtempTest_branchWorked r.t forbids
        (follows_hot b.isolated b.overcurrent b.chgOvercurrent b.overtemp b.cutoff (decide disTrips) (decide chgTrips))
        (follows_cooled b.isolated b.overcurrent b.chgOvercurrent b.overtemp b.cutoff (decide disTrips) (decide chgTrips))
    have counted : (if b3.state = .closed ∧ r.v < s.lim.cutoffV then b3.cutRun + 1 else 0) = low := by
      refine ite_congr (propext ?_) (fun _ => rfl) fun _ => rfl
      rw [Bool.and_eq_true, decide_eq_true_eq]
      exact and_congr_left fun _ => itemsState_of_no_trip b.isolated oc coc hot b.cutoff
    have fourth : cutoffTest x r.v (branchWorked x s b3 s.mon (f1 ||| f2 ||| f3)) = branchWorked x s b4
        (if 3 ≤ low then emptied else s.mon) (f1 ||| f2 ||| f3 ||| if 3 ≤ low then cutoffFlag else 0) := by
      have test := cutoffTest_branchWorked (b := b3) (flags := f1 ||| f2 ||| f3) r.v forbids
        (follows_cutoff b.isolated b.overcurrent b.chgOvercurrent b.overtemp b.cutoff (decide disTrips) (decide chgTrips) hot)
      rw [counted] at test
      exact test
    have fifth : cutoffRelease x r.v (branchWorked x s b4 (if 3 ≤ low then emptied else s.mon)
        (f1 ||| f2 ||| f3 ||| if 3 ≤ low then cutoffFlag else 0)) =
        branchWorked x s { b4 with cutoff := if s.lim.cutoffV + 200 ≤ r.v then false else b4.cutoff }
          (if 3 ≤ low then emptied else s.mon) (f1 ||| f2 ||| f3 ||| if 3 ≤ low then cutoffFlag else 0) := by
      refine cutoffRelease_branchWorked r.v forbids fun hcut hv => ?_
      have notLow : ¬3 ≤ low := by
        have zero : low = 0 := by
          simp only [low]
          rw [decide_eq_false (by omega), Bool.and_false]
          rfl
        omega
      have kept : b4.cutoff = b.cutoff := by
        simp only [b4]
        rw [decide_eq_false notLow, Bool.or_false]
      have := follows_release b.isolated b.overcurrent b.chgOvercurrent b.overtemp b.cutoff (decide disTrips) (decide chgTrips) hot
        (kept ▸ hcut)
      change Follows b.state (itemsState b.isolated oc coc hot b4.cutoff) _
      rw [kept]
      exact this
    have flags : f1 ||| f2 ||| f3 =
        causeFlag x ((oc && !b.overcurrent) || (coc && !b.chgOvercurrent) || (hot && !b.overtemp)) := by
      have new (old trips : Bool) : ((old || trips) && !old) = (trips && !old) := by cases old <;> cases trips <;> rfl
      rw [causeFlag_or, causeFlag_or, new, new]
    rw [tests, branchTests, first, second, third, fourth, fifth, flags]
    rfl
  · rw [branchSlot, hr]
    rfl
  · have row : exec (.dischargeOvercurrentRun x) s = .next (dischargeRun x s) := rfl
    have moved := tripDischarge_branchWorked (mon := s.mon) (flags := 0) forbids (unmoved _)
    rw [row, dischargeRun, if_pos some]
    rw [start, none, flag] at moved
    rw [moved]
    rfl
  · have row : exec (.chargeOvercurrentRun x) s = .next (chargeRun x s) := rfl
    have moved := tripCharge_branchWorked (mon := s.mon) (flags := 0) forbids (unmoved _)
    rw [row, chargeRun, if_pos some]
    rw [start, none, flag] at moved
    rw [moved]
    rfl
  · have row : exec (.cutoffRun x) s = .next (cutoffRun x s) := rfl
    have moved := tripCutoff_branchWorked (flags := 0) forbids (unmoved _)
    rw [start, none] at moved
    rw [row, cutoffRun, moved]
    by_cases hc : b.state = .closed
    · rw [if_pos ⟨some, hc⟩, if_pos hc]
      rfl
    · rw [if_neg fun hn => hc hn.2, if_neg hc]

end Sys2Proof.Machine
end

section
/-! The control reset, from RSTN and from RESET (10.1, 10.2, and the reset section of each chapter). -/

namespace Sys2Proof.Machine

/-! ### What stands aside of the ports and the arbiter -/

/-- A change of the state that the port steps and the arbiter neither read nor undo. -/
structure Aside (g : State → State) : Prop where
  port : ∀ s, (g s).port = s.port
  arb : ∀ s, (g s).arb = s.arb
  lim : ∀ s, (g s).lim = s.lim
  ceiling : ∀ s p, portCeiling (g s) p = portCeiling s p
  stepped : ∀ p w s, portStepped p w (g s) = g (portStepped p w s)
  opened : ∀ dest s, switchOpened dest (g s) = g (switchOpened dest s)
  idle : ∀ dest s, goIdle dest (g s) = g (goIdle dest s)
  closed : ∀ p s, goActive p (g s) = g (goActive p s)
  request : ∀ c s, requestPassIf c (g s) = g (requestPassIf c s)

section
variable {g : State → State} (h : Aside g)
include h

theorem Aside.leaveActive (dest : ArbState) (s : State) : leaveActive dest (g s) = g (leaveActive dest s) := by
  rw [leaveActive_eq, leaveActive_eq, h.opened]

theorem Aside.eligible (s : State) (p : PortId) : eligible (g s) p = Machine.eligible s p := by
  rw [Machine.eligible, h.port, Machine.eligible]

theorem Aside.arbGain (p : PortId) (s : State) : arbGain p (g s) = g (arbGain p s) := by
  unfold Machine.arbGain
  rw [h.arb, h.lim]
  cases s.arb.st with
  | none => simp only [apply_ite g, h.idle, h.closed]
  | active q => simp only [apply_ite g, h.leaveActive]
  | changeover => rfl

theorem Aside.arbLoss (p : PortId) (s : State) : arbLoss p (g s) = g (arbLoss p s) := by
  unfold Machine.arbLoss
  rw [h.arb, h.eligible]
  cases s.arb.st with
  | none => rfl
  | active q => simp only [apply_ite g, h.leaveActive]
  | changeover => rfl

theorem Aside.stepPort (p : PortId) (w : PortStep) (s : State) : stepPort p w (g s) = g (stepPort p w s) := by
  rw [stepPort_eq, stepPort_eq, h.stepped, h.port]
  unfold handEligibility
  rw [h.eligible]
  simp only [apply_ite g, h.arbLoss, h.arbGain]

theorem Aside.reevaluatePort (p : PortId) (s : State) : reevaluatePort p (g s) = g (reevaluatePort p s) := by
  unfold Machine.reevaluatePort
  rw [h.port, h.lim, h.ceiling]
  simp only [apply_ite g, h.stepPort, h.request]

theorem Aside.reevaluateBoth (s : State) : reevaluateBoth (g s) = g (reevaluateBoth s) := by
  unfold Machine.reevaluateBoth
  simp only [apply_ite g, h.reevaluatePort]

end

theorem aside_withRequest : Aside withRequest where
  port _ := rfl
  arb _ := rfl
  lim _ := rfl
  ceiling _ _ := rfl
  stepped p w s := by
    unfold portStepped
    rw [withRequest_port]
    by_cases h : contractOf (s.port.get p) = contractOf w.port
    · rw [if_pos h, if_pos h]
      rfl
    · rw [if_neg h, if_neg h]
      rfl
  opened _ _ := rfl
  idle dest s := by
    rw [goIdle_eq, goIdle_eq]
    rfl
  closed p s := by
    unfold goActive activatePort
    dsimp only
    rw [withRequest_port, requestPass_eq, requestPass_eq]
    cases (s.port.get p).held <;> rfl
  request c s := by
    rw [requestPassIf_eq, requestPassIf_eq]
    cases c <;> rfl

/-- The link changed to `l`. -/
def relinked (l : Link) (s : State) : State := { s with link := l }

theorem aside_relinked (l : Link) : Aside (relinked l) where
  port _ := rfl
  arb _ := rfl
  lim _ := rfl
  ceiling _ _ := rfl
  stepped _ _ _ := rfl
  opened _ _ := rfl
  idle dest s := by
    rw [goIdle_eq, goIdle_eq]
    rfl
  closed p s := by
    unfold goActive activatePort
    dsimp only
    rw [requestPass_eq, requestPass_eq, show (relinked l s).port = s.port from rfl]
    cases (s.port.get p).held <;> rfl
  request c s := by
    rw [requestPassIf_eq, requestPassIf_eq]
    rfl

theorem reevaluateBoth_withRequest (s : State) : reevaluateBoth (withRequest s) = withRequest (reevaluateBoth s) :=
  aside_withRequest.reevaluateBoth s

theorem reevaluateBoth_relinked (l : Link) (s : State) : reevaluateBoth (relinked l s) = relinked l (reevaluateBoth s) :=
  (aside_relinked l).reevaluateBoth s

/-! ### The blocks' reset steps (R27, R31, R80, R88, R104, R114, R117, R154, R169) -/

theorem withRequest_moveCharge (x : Cell) (c : Charge) (s : State) : withRequest (moveCharge x c s) = putCharge x c (withRequest s) := by
  rw [moveCharge_eq]
  unfold withPhase
  split <;> rfl

theorem withRequest_moveBranch {x : Cell} {b : Branch} {s : State} (h : b.state.forbids (s.budget.cmd.get x) = false) :
    withRequest (moveBranch x b s) = putBranch x b (withRequest s) := by
  have kept : ¬(b.state ≠ (s.br.get x).state ∧ b.state.forbids (s.budget.cmd.get x) = true) := by
    rw [h]
    rintro ⟨-, hf⟩
    cases hf
  rw [moveBranch_moved, if_neg kept]
  by_cases hb : b.state = (s.br.get x).state
  · rw [if_pos hb]
    rfl
  · rw [if_neg hb]
    rfl

/-- The count of a cell's reading rescaled (R80). -/
def rescaledMonitor (m : Monitor) (old new : Nat) : Monitor :=
  { m with rd := m.rd.map fun r => { r with count := r.count * new / old } }

theorem rescale_monitor (x : Cell) (old : Nat) (s : State) :
    rescale x old s = { s with mon := s.mon.set x (rescaledMonitor (s.mon.get x) old (s.lim.cap.get x)) } := by
  unfold rescale readingOf rescaledMonitor
  cases h : (s.mon.get x).rd with
  | some r => simp [putReading, putMonitor]
  | none =>
    have same : { s.mon.get x with rd := none } = s.mon.get x := by rw [← h]
    simp [same]

/-- Without its latched causes a branch stands where it stood, unless it was open. -/
theorem itemsState_dropped : ∀ iso oc coc hot cut : Bool,
    itemsState iso false false hot cut = itemsState iso oc coc hot cut ∨ itemsState iso oc coc hot cut = .openFault := by
  decide

/-- A branch with its latched causes and its runs dropped (R114). -/
def droppedBranch (b : Branch) : Branch := { b with overcurrent := false, chgOvercurrent := false, disRun := 0, chgRun := 0, cutRun := 0 }

theorem forbids_droppedBranch {b : Branch} {i : Int} (h : b.state.forbids i = false) : (droppedBranch b).state.forbids i = false := by
  have dropped : (droppedBranch b).state = b.state ∨ b.state = .openFault :=
    itemsState_dropped b.isolated b.overcurrent b.chgOvercurrent b.overtemp b.cutoff
  rcases dropped with hs | hs
  · rwa [hs]
  · rw [hs] at h
    have zero : i = 0 := by simpa [BranchState.forbids] using h
    rw [zero]
    cases (droppedBranch b).state <;> rfl

/-- A charge phase machine after a control reset (R104). -/
def resetMachine (c : Charge) : Charge := { c with phase := .off, session := none, ovRun := 0, termRun := 0 }

/-- What the blocks' reset steps leave, up to the re-evaluation of the ports, with the pass request made. -/
def resetBase (s : State) : State :=
  { s with
    resv := Table.reset
    mon := ⟨rescaledMonitor s.mon.a s.lim.cap.a 2600, rescaledMonitor s.mon.b s.lim.cap.b 1900⟩
    chg := ⟨resetMachine s.chg.a, resetMachine s.chg.b⟩
    br := ⟨droppedBranch s.br.a, droppedBranch s.br.b⟩
    load := { s.load with on := false, U := 0, onRun := 0, offRun := 0 }
    cond := ⟨0, 0, true, true, ⟨0, 0, 0, 0, 0, 0, 0, 0⟩⟩
    lim := Limits.default
    locked := false
    budget := (withRequest s).budget
    link := { s.link with rx := .idle, frameTimer := none, ldo := none, silence := none } }

/-- A control reset: the blocks' steps, the ports re-evaluated, FIRST_FRAME placed (R154). -/
theorem controlReset_placed (s : State) (h : commandsOk s) : controlReset s = placeAnswer .firstFrame [] (reevaluateBoth (resetBase s)) := by
  have free (x : Cell) : (s.br.get x).state.forbids (s.budget.cmd.get x) = false := ((commandOk_iff s x).mp ((commandsOk_iff s).mp h x)).2
  let cells := resetCells s.lim.cap (resetTable (resetConditions (resetLimits (discardFrame s))))
  let machineA := resetCharge .A cells
  let machines := resetCharge .B machineA
  let branchA := resetBranch .A machines
  have counts : cells = { resetTable (resetConditions (resetLimits (discardFrame s))) with
      mon := ⟨rescaledMonitor s.mon.a s.lim.cap.a 2600, rescaledMonitor s.mon.b s.lim.cap.b 1900⟩ } := by
    simp only [cells, resetCells, rescale_monitor]
    rfl
  have first : withRequest machineA = putCharge .A (resetMachine (cells.chg.get .A)) (withRequest cells) := withRequest_moveCharge ..
  have second : withRequest machines = putCharge .B (resetMachine (cells.chg.get .B)) (withRequest machineA) := by
    have kept : machineA.chg.get .B = cells.chg.get .B := by
      rw [show machineA.chg = (withRequest machineA).chg from rfl, first]
      rfl
    have moved : withRequest machines = putCharge .B (resetMachine (machineA.chg.get .B)) (withRequest machineA) := withRequest_moveCharge ..
    rw [moved, kept]
  have charged : withRequest machines = putCharge .B (resetMachine s.chg.b) (putCharge .A (resetMachine s.chg.a) (withRequest cells)) := by
    rw [second, first, counts]
    rfl
  have branches : machines.br = s.br := by
    rw [show machines.br = (withRequest machines).br from rfl, charged, counts]
    rfl
  have commands : machines.budget.cmd = s.budget.cmd := by
    rw [show machines.budget.cmd = (withRequest machines).budget.cmd from rfl, charged, counts]
    rfl
  have third : withRequest branchA = putBranch .A (droppedBranch s.br.a) (withRequest machines) := by
    have moved : withRequest branchA = putBranch .A (droppedBranch (machines.br.get .A)) (withRequest machines) :=
      withRequest_moveBranch (by
        rw [branches, commands]
        exact forbids_droppedBranch (free .A))
    rw [moved, branches]
    rfl
  have fourth : withRequest (resetBranch .B branchA) = putBranch .B (droppedBranch s.br.b) (withRequest branchA) := by
    have kept : branchA.br.get .B = s.br.b := by
      rw [show branchA.br = (withRequest branchA).br from rfl, third]
      change machines.br.b = s.br.b
      rw [branches]
    have still : branchA.budget.cmd = s.budget.cmd := by
      rw [show branchA.budget.cmd = (withRequest branchA).budget.cmd from rfl, third]
      exact commands
    have moved : withRequest (resetBranch .B branchA) = putBranch .B (droppedBranch (branchA.br.get .B)) (withRequest branchA) :=
      withRequest_moveBranch (by
        rw [kept, still]
        exact forbids_droppedBranch (free .B))
    rw [moved, kept]
  have base : withRequest (resetLoad (resetBranch .B branchA)) = resetBase s := by
    have load : withRequest (resetLoad (resetBranch .B branchA)) = resetLoad (withRequest (resetBranch .B branchA)) := rfl
    rw [load, fourth, third, charged, counts]
    rfl
  rw [← base, reevaluateBoth_withRequest, ← requestPass_eq]
  rfl

/-- Settles O52: the reset from RSTN and from RESET, and what RSTN bars. -/
theorem controlResetTakesEveryResetStep : Obligations.ControlResetTakesEveryResetStep := by
  intro s h rescaled off dropped u placed
  have low : exec .rstnLow s = .next (rstnFall s) := rfl
  refine ⟨fun hl => ?_, fun hl => ?_, fun hf => ⟨?_, fun b args hn => ?_⟩, rfl⟩
  · have reset : controlReset { s with link := { s.link with rstnLow := true } } =
        placeAnswer .firstFrame [] (reevaluateBoth (resetBase { s with link := { s.link with rstnLow := true } })) :=
      controlReset_placed _ h
    rw [low, rstnFall, if_neg (by simp [hl]), reset]
    rfl
  · rw [low, rstnFall, if_pos hl]
  · have row : exec (.reset []) s = .next (commandFrame runReset [] s) := rfl
    have reset : controlReset (afterEdges s) = placeAnswer .firstFrame [] (reevaluateBoth (resetBase (afterEdges s))) :=
      controlReset_placed _ h
    have limits : (reevaluateBoth (resetBase s)).lim = Limits.default := (keepsLimits_of_updates (updates_reevaluateBoth _)).1
    have edges : resetBase (afterEdges s) = relinked (resetBase (afterEdges s)).link (resetBase s) := rfl
    have raised : ({ u with link := { u.link with lselHigh := true } } : State) = relinked { u.link with lselHigh := true } (resetBase s) := rfl
    rw [row, commandFrame_taken hf (by simp), runReset, reset, raised, edges, reevaluateBoth_relinked, reevaluateBoth_relinked]
    generalize reevaluateBoth (resetBase s) = v at limits ⊢
    have off : restarted v.lim.silenceLimit 1000 = none := by
      rw [limits]
      rfl
    refine congrArg Host.Outcome.next ?_
    change ({ v with link := { (resetBase (afterEdges s)).link with
      buffer := some ⟨statusByte v, .firstFrame, []⟩, silence := restarted v.lim.silenceLimit 1000 } } : State) = _
    rw [off]
    rfl
  · have row : exec (.reset (b :: args)) s = .next (commandFrame runReset (b :: args) s) := rfl
    rw [answersOnly, row, commandFrame_taken hf (by simp; omega)]
    rfl

end Sys2Proof.Machine
end

section
/-! Charge control at a slot, and the rows of its runs and timers (5.1 to 5.8). -/

namespace Sys2Proof.Machine

/-! ### A machine put and then moved (R29) -/

/-- Entry to FULL from a machine `c` (R95). -/
def fullEntered (x : Cell) (c : Charge) (s : State) : State :=
  latchedWith (cellFlag x 0x1000#26) (withCount x (s.lim.cap.get x * 3600000)
    (withPhase x { c with phase := .full, session := none, termRun := 0 } s))

/-- Entry to FAULT from a machine `c` (R101). -/
def faultEntered (x : Cell) (c : Charge) (f : ChgFault) (s : State) : State :=
  latchedWith (cellFlag x 0x4000#26) (withPhase x { c with phase := .fault f, session := none, ovRun := 0, termRun := 0 } s)

section
variable {x : Cell} {c : Charge} {s : State} (h : c.phase = (s.chg.get x).phase)
include h

theorem moveCharge_putCharge (d : Charge) : moveCharge x d (putCharge x c s) = withPhase x d s := by
  rw [moveCharge_eq, withPhase_putCharge x c d s h]

theorem putCharge_putCharge {d : Charge} (hd : d.phase = c.phase) : putCharge x d (putCharge x c s) = withPhase x d s := by
  rw [putCharge_eq_withPhase _ _ _ (by simpa [putCharge] using hd), withPhase_putCharge x c d s h]

theorem enterFull_putCharge : enterFull x (putCharge x c s) = fullEntered x c s := by
  rw [enterFull_eq, withPhase_putCharge x c _ s h]
  simp only [putCharge, PerCell.get_set_self]
  rfl

theorem enterChgFault_putCharge (f : ChgFault) : enterChgFault x f (putCharge x c s) = faultEntered x c f s := by
  rw [enterChgFault_eq, withPhase_putCharge x c _ s h]
  simp only [putCharge, PerCell.get_set_self]
  rfl

end

/-! ### What the tests read (R89, R92, R97) -/

theorem derateOf_of_reading {s : State} {x : Cell} {r : Reading} (hr : readingOf s x = some r) : derateOf s x = s.lim.derate.row r.zone := by
  rw [derateOf, hr]

theorem holdCondition_iff {s : State} {x : Cell} {r : Reading} (hr : readingOf s x = some r) :
    holdCondition s x = true ↔ (s.lim.derate.row r.zone).charge = 0 ∨ s.lim.chargeEn.get x = 0 ∨
      (x = .B ∧ (s.hinge.dataState = .awaiting ∨ s.hinge.dataState = .stale ∨ s.hinge.dataState = .degraded)) ∨
      branchState s x = .openFault ∨ branchState s x = .openIsolated := by
  have data : (dataStateOf s x).holds = true ↔
      x = .B ∧ (s.hinge.dataState = .awaiting ∨ s.hinge.dataState = .stale ∨ s.hinge.dataState = .degraded) := by
    cases x with
    | A => simp [dataStateOf, DataState.holds]
    | B => cases hd : s.hinge.dataState <;> simp [dataStateOf, DataState.holds, hd]
  have branch : (branchState s x).isOpen = true ↔ branchState s x = .openFault ∨ branchState s x = .openIsolated := by
    cases branchState s x <;> simp [BranchState.isOpen]
  rw [holdCondition, derateOf_of_reading hr, Bool.or_eq_true, Bool.or_eq_true, Bool.or_eq_true, beq_iff_eq, beq_iff_eq, data, branch]
  tauto

theorem activePort_isSome_iff (s : State) : (activePort s).isSome = true ↔ ∃ p, s.arb.st = .active p := by
  unfold activePort
  cases s.arb.st <;> simp

/-! ### The tests of a phase on a machine that has been put (R90 to R97) -/

section
variable {x : Cell} {c : Charge} {s : State} (h : c.phase = (s.chg.get x).phase)
include h

theorem startTest_putCharge (v : Nat) : startTest x v (putCharge x c s) =
    if (activePort s).isSome = true ∧ holdCondition s x = false then
      if v < s.lim.preV then withPhase x { c with phase := .precharge, session := some (newSession s.lim) } s
      else if v < rechargeVolt s x then withPhase x { c with phase := .fast, session := some (newSession s.lim) } s
      else fullEntered x c s
    else putCharge x c s := by
  have starts : startCondition (putCharge x c s) x = ((activePort s).isSome && !holdCondition s x) := rfl
  have own : (putCharge x c s).chg.get x = c := PerCell.get_set_self ..
  rw [startTest, starts, beginSession, beginSession, moveCharge_putCharge h, moveCharge_putCharge h, enterFull_putCharge h, own]
  refine ite_congr (propext ?_) (fun _ => rfl) fun _ => rfl
  rw [Bool.and_eq_true, Bool.not_eq_true']

theorem resumeTest_putCharge (v : Nat) : resumeTest x v (putCharge x c s) =
    if holdCondition s x then putCharge x c s
    else if v < s.lim.preV then withPhase x { c with phase := .precharge } s
    else if v < rechargeVolt s x then withPhase x { c with phase := .fast } s
    else fullEntered x c s := by
  have own : (putCharge x c s).chg.get x = c := PerCell.get_set_self ..
  rw [resumeTest, moveCharge_putCharge h, moveCharge_putCharge h, enterFull_putCharge h, own]
  rfl

theorem enterHold_putCharge : enterHold x (putCharge x c s) = withPhase x { c with phase := .hold, termRun := 0 } s := by
  have own : (putCharge x c s).chg.get x = c := PerCell.get_set_self ..
  rw [enterHold, moveCharge_putCharge h, own]

theorem rechargeTest_putCharge (v : Nat) : rechargeTest x v (putCharge x c s) =
    if v < rechargeVolt s x ∧ holdCondition s x = false then
      withPhase x { c with phase := .fast, session := some (newSession s.lim) } s
    else putCharge x c s := by
  have own : (putCharge x c s).chg.get x = c := PerCell.get_set_self ..
  rw [rechargeTest, beginSession, moveCharge_putCharge h, own]
  rfl

theorem prechargeTest_putCharge (v : Nat) : prechargeTest x v (putCharge x c s) =
    if s.lim.preV + 100 ≤ v then withPhase x { c with phase := .fast } s else putCharge x c s := by
  have own : (putCharge x c s).chg.get x = c := PerCell.get_set_self ..
  rw [prechargeTest, moveCharge_putCharge h, own]
  rfl

theorem fastTest_putCharge (v : Nat) : fastTest x v (putCharge x c s) =
    if targetVolt s x ≤ v then withPhase x { c with phase := .taper, termRun := 0 } s else putCharge x c s := by
  have own : (putCharge x c s).chg.get x = c := PerCell.get_set_self ..
  rw [fastTest, moveCharge_putCharge h, own]
  rfl

theorem taperTest_putCharge (i : Int) : taperTest x i (putCharge x c s) =
    let m := if s.lim.termI.get x ≤ (s.budget.cmd.get x).toNat ∧ i < s.lim.termI.get x then c.termRun + 1 else 0
    if 3 ≤ m then fullEntered x c s else withPhase x { c with termRun := m } s := by
  extract_lets m
  have own : (putCharge x c s).chg.get x = c := PerCell.get_set_self ..
  have run : termRunAfter (putCharge x c s) x i = m := by
    rw [termRunAfter, own]
    rfl
  rw [taperTest, run, enterFull_putCharge h, own]
  exact ite_congr rfl (fun _ => rfl) fun _ => putCharge_putCharge h rfl

end

/-- At held values only the hold test is made, in the charging phases (R90). -/
theorem heldSlotTest_eq (x : Cell) (s : State) : heldSlotTest x s =
    if ((s.chg.get x).phase = .precharge ∨ (s.chg.get x).phase = .fast ∨ (s.chg.get x).phase = .taper) ∧ holdCondition s x = true then
      enterHold x s
    else s := by
  unfold heldSlotTest
  cases (s.chg.get x).phase <;> simp

/-! ### The slot (R90) -/

/-- Settles O54: the overvoltage run first, then the tests of the phase on the machine with the run counted. -/
theorem chargeSlotFollowsThePhase : Obligations.ChargeSlotFollowsThePhase := by
  intro s x r hr c n hold active fresh recharge is full fault
  have some : (readingOf s x).isSome = true := by rw [hr]; rfl
  have holds : holdCondition s x = true ↔ hold := holdCondition_iff hr
  have free : holdCondition s x = false ↔ ¬hold := by rw [← holds, Bool.not_eq_true]
  have slot : chargeSlot x true s = evalAccepted x r.v r.i (putCharge x c s) := by
    rw [chargeSlot, hr]
    rfl
  have own (d : Charge) : (putCharge x d s).chg.get x = d := PerCell.get_set_self ..
  have run : ovRunAfter (putCharge x c s) x r.v = n := by
    rw [ovRunAfter, own]
    rfl
  have kept (d : Charge) (hd : d.phase = c.phase) : putCharge x d s = withPhase x d s := putCharge_eq_withPhase x d s hd
  have counting (hf : ∀ f, c.phase ≠ .fault f) : evalAccepted x r.v r.i (putCharge x c s) = if 3 ≤ n then fault c .overvoltage
      else phaseTests x r.v r.i (putCharge x { c with ovRun := n } s) := by
    have sound : ¬c.phase.isFault = true := fun h => by
      obtain ⟨f, h⟩ := (isFault_iff _).mp h
      exact hf f h
    have entered : enterChgFault x .overvoltage (putCharge x c s) = faultEntered x c .overvoltage s :=
      enterChgFault_putCharge (c := c) (s := s) rfl .overvoltage
    have again (d : Charge) : putCharge x d (putCharge x c s) = putCharge x d s := by simp only [putCharge, PerCell.set_set_self]
    rw [evalAccepted, run, own, if_neg sound, entered]
    exact ite_congr rfl (fun _ => rfl) fun _ => by rw [again]
  refine ⟨by rw [targetVolt, derateOf_of_reading hr], fun ⟨f, hf⟩ => ?_, fun hf hn => ?_, fun hn => ?_, ?_, ?_, ?_, ?_, ?_⟩
  · have faulted : c.phase.isFault = true := (isFault_iff _).mpr ⟨f, hf⟩
    change chargeSlot x true s = _
    rw [slot, evalAccepted, own, if_pos faulted, kept c rfl]
  · rw [slot, counting hf, if_pos hn]
  · intro c1
    have base : c1.phase = (s.chg.get x).phase := rfl
    have tests {p : Phase} (hp : c1.phase = p) (hf : ∀ f, p ≠ .fault f) :
        chargeSlot x true s = phaseTests x r.v r.i (putCharge x c1 s) := by
      have sound (f : ChgFault) : c.phase ≠ .fault f := fun h => hf f (hp.symm.trans h)
      rw [slot, counting sound, if_neg (Nat.not_le.mpr hn)]
    have phase {p : Phase} (hp : c1.phase = p) : ((putCharge x c1 s).chg.get x).phase = p := by rw [own, hp]
    have unchanged : putCharge x c1 s = withPhase x c1 s := kept c1 rfl
    have atPhase {p : Phase} (hp : c1.phase = p) (hf : ∀ f, p ≠ .fault f) {t : State}
        (ht : phaseTests x r.v r.i (putCharge x c1 s) = t) : chargeSlot x true s = t := (tests hp hf).trans ht
    refine ⟨fun hp => ?_, fun hp hh => ?_, fun hp hh => ?_, fun hp hh => ?_, fun hp hh => ?_, fun hp => ?_, fun hp => ?_⟩
    · have test : phaseTests x r.v r.i (putCharge x c1 s) = startTest x r.v (putCharge x c1 s) := by rw [phaseTests, phase hp]
      have start := atPhase hp (by simp) (test.trans (startTest_putCharge base r.v))
      refine ⟨fun _ hh => ?_, fun ha => ?_, fun ha hh => ?_⟩
      · rw [if_neg fun h => free.mp h.2 hh, unchanged] at start
        exact start
      · rw [if_neg fun h => ha ((activePort_isSome_iff s).mp h.1), unchanged] at start
        exact start
      · rw [if_pos ⟨(activePort_isSome_iff s).mpr ha, free.mpr hh⟩] at start
        refine ⟨fun hv => start.trans (if_pos hv), fun hv hq => ?_, fun hv hq => ?_⟩
        · rw [if_neg (Nat.not_lt.mpr hv)] at start
          exact start.trans (if_pos hq)
        · rw [if_neg (Nat.not_lt.mpr hv)] at start
          exact start.trans (if_neg (Nat.not_lt.mpr hq))
    · have hold := holds.mpr hh
      rcases hp with hp | hp | hp
      · refine atPhase hp (by simp) ?_
        rw [phaseTests, phase hp]
        exact (if_pos hold).trans (enterHold_putCharge base)
      · refine atPhase hp (by simp) ?_
        rw [phaseTests, phase hp]
        exact (if_pos hold).trans (enterHold_putCharge base)
      · refine atPhase hp (by simp) ?_
        rw [phaseTests, phase hp]
        exact (if_pos hold).trans (enterHold_putCharge base)
    · refine atPhase hp (by simp) ?_
      rw [phaseTests, phase hp]
      refine (if_neg (mt holds.mp hh)).trans ((prechargeTest_putCharge base r.v).trans ?_)
      rw [unchanged, ← apply_ite (fun d => withPhase x d s)]
    · refine atPhase hp (by simp) ?_
      rw [phaseTests, phase hp]
      refine (if_neg (mt holds.mp hh)).trans ((fastTest_putCharge base r.v).trans ?_)
      rw [unchanged, ← apply_ite (fun d => withPhase x d s)]
    · intro m
      have test : phaseTests x r.v r.i (putCharge x c1 s) = taperTest x r.i (putCharge x c1 s) := by
        rw [phaseTests, phase hp]
        exact if_neg (mt holds.mp hh)
      have taper := atPhase hp (by simp) (test.trans (taperTest_putCharge base r.i))
      exact ⟨fun hm => taper.trans (if_neg (Nat.not_le.mpr hm)), fun hm => taper.trans (if_pos hm)⟩
    · have test : phaseTests x r.v r.i (putCharge x c1 s) = resumeTest x r.v (putCharge x c1 s) := by rw [phaseTests, phase hp]
      have resume := atPhase hp (by simp) (test.trans (resumeTest_putCharge base r.v))
      refine ⟨fun hh => ?_, fun hh => ⟨fun hv => ?_, fun hv hq => ?_, fun hv hq => ?_⟩⟩
      · rw [if_pos (holds.mpr hh), unchanged] at resume
        exact resume
      · rw [if_neg (mt holds.mp hh)] at resume
        exact resume.trans (if_pos hv)
      · rw [if_neg (mt holds.mp hh), if_neg (Nat.not_lt.mpr hv)] at resume
        exact resume.trans (if_pos hq)
      · rw [if_neg (mt holds.mp hh), if_neg (Nat.not_lt.mpr hv)] at resume
        exact resume.trans (if_neg (Nat.not_lt.mpr hq))
    · refine atPhase hp (by simp) ?_
      rw [phaseTests, phase hp]
      refine (rechargeTest_putCharge base r.v).trans ?_
      rw [unchanged, ← apply_ite (fun d => withPhase x d s)]
      exact congrArg (fun d => withPhase x d s) (ite_congr (propext (and_congr_right fun _ => free)) (fun _ => rfl) fun _ => rfl)
  · have held : chargeSlot x false s = heldSlotTest x (putCharge x c s) := by
      rw [chargeSlot, hr]
      rfl
    have unchanged : putCharge x c s = withPhase x c s := kept c rfl
    have entered : enterHold x (putCharge x c s) = withPhase x { c with phase := .hold, termRun := 0 } s :=
      enterHold_putCharge (c := c) (s := s) rfl
    rw [held, heldSlotTest_eq, entered, own, apply_ite (fun d => withPhase x d s)]
    exact ite_congr (propext (and_congr_right fun _ => holds)) (fun _ => rfl) fun _ => unchanged
  · have row : exec (.cellOvervoltageRun x) s = .next (overvoltageRun x s) := rfl
    rw [row, overvoltageRun, enterChgFault_eq]
    cases (s.chg.get x).phase with
    | fault f => rw [if_neg (by simp [Phase.isFault])]
    | _ => exact congrArg _ (if_pos ⟨some, rfl⟩)
  · have row : exec (.terminationRun x) s = .next (terminationRun x s) := rfl
    rw [row, terminationRun, enterFull_eq]
  · have row : exec (.prechargeTimerExpiry x) s = .next (prechargeExpiry x s) := rfl
    rw [row, prechargeExpiry, enterChgFault_eq]
    refine congrArg _ (ite_congr (propext ?_) (fun _ => rfl) fun _ => rfl)
    rw [Charge.prechargeDue_iff, Option.map_eq_some_iff]
  · have row : exec (.fastTimerExpiry x) s = .next (fastExpiry x s) := rfl
    rw [row, fastExpiry, enterChgFault_eq]
    refine congrArg _ (ite_congr (propext ?_) (fun _ => rfl) fun _ => rfl)
    rw [Charge.fastDue_iff, Option.map_eq_some_iff]

end Sys2Proof.Machine
end

section
/-! The step while nothing waits: an expiry, or one millisecond (1.6 and the timers of each chapter). -/

namespace Sys2Proof.Machine

/-! ### The rows of expiries that are not due (R26, log 4) -/

/-- A record's expiry that is not due changes nothing, with no record as well (R26). -/
theorem expireWhere_of_none_due {due : Record → Bool} {s : State} {k : Fin 24} {c : EndCause}
    (h : ∀ r, recordOf s k = some r → due r ≠ true) : expireWhere due k c s = s := by
  cases hr : recordOf s k with
  | none => simp only [expireWhere, hr]
  | some r => exact expireWhere_of_not_due hr (Bool.eq_false_iff.mpr (h r hr))

/-- The row of an expiry changes nothing where its timer does not stand at its end. -/
theorem exec_of_not_atEnd {s : State} {e : Instr} (he : Expiry e) (h : ¬TimerAtEnd s e) : exec e s = .next s := by
  have kept {t : State} (row : exec e s = .next t) (ht : t = s) : exec e s = .next s := row.trans (congrArg _ ht)
  cases he with
  | frame => exact kept rfl (if_neg fun hc => h (.frame hc.1 hc.2))
  | silence => exact kept rfl (if_neg fun hc => h (.silence hc))
  | lifetime k => exact kept rfl (expireWhere_of_none_due fun r hr hd =>
      h (.lifetime k r hr (r.lifetimeDue_iff.mp hd).1 (r.lifetimeDue_iff.mp hd).2))
  | burst k => exact kept rfl (expireWhere_of_none_due fun r hr hd => by
      obtain ⟨hst, hkind, hrem⟩ := r.burstDue_iff.mp hd
      exact h (.burst k r hr hst hkind hrem))
  | burstTotal k => exact kept rfl (expireWhere_of_none_due fun r hr hd => by
      obtain ⟨hst, hkind, htot⟩ := r.burstTotalDue_iff.mp hd
      exact h (.burstTotal k r hr hst hkind htot))
  | waitLimit k => exact kept rfl (expireWhere_of_none_due fun r hr hd => by
      obtain ⟨hlive, hst, hrem⟩ := r.waitLimitDue_iff.mp hd
      exact h (.waitLimit k r hr hlive hst hrem))
  | precharge x => exact kept rfl (if_neg fun hd => by
      obtain ⟨hp, q, hq, hz⟩ := (Charge.prechargeDue_iff _).mp hd
      exact h (.precharge x q hp hq hz))
  | fast x => exact kept rfl (if_neg fun hd => by
      obtain ⟨hp, q, hq, hz⟩ := (Charge.fastDue_iff _).mp hd
      exact h (.fast x q hp hq hz))
  | degraded => exact kept rfl (if_neg fun hc => h (.degraded hc.1 hc.2))
  | hslBreak => exact kept rfl (if_neg fun hc => h (.hslBreak hc))
  | offerWindow p => exact kept rfl (if_neg fun hc => h (.offerWindow p hc.1 hc.2))
  | confirm p => exact kept rfl (if_neg fun hc => h (.confirm p hc.1 hc.2))
  | verify p => exact kept rfl (if_neg fun hc => h (.verify p hc.1 hc.2))
  | breakWait => exact kept rfl (if_neg fun hc => h (.breakWait hc))
  | foldSettle => exact kept rfl (if_neg fun hc => h (.foldSettle hc))
  | requestDelay => exact kept rfl (if_neg fun hc => h (.requestDelay hc))
  | pass => exact kept rfl (if_neg fun hc => h (.pass hc))

/-! ### One millisecond -/

theorem Charge.tick_eq (c : Charge) : c.tick =
    { c with
      session := c.session.map fun q =>
        if c.phase = .precharge then { q with pre := q.pre - 1 }
        else if c.phase = .fast ∨ c.phase = .taper then { q with fast := q.fast - 1 }
        else q } := by
  rcases c with ⟨phase, session, ovRun, termRun, target⟩
  cases phase <;> simp [Charge.tick]

/-- Settles O2. -/
theorem idleStepCountsRecordTimers : Obligations.IdleStepCountsRecordTimers := by
  intro s
  refine ⟨fun e he h => exec_of_not_atEnd he h, fun hidle => ⟨fun ⟨e, hend⟩ => ?_, fun hnone => ?_⟩⟩
  · cases hd : dueEvent s with
    | none => exact absurd hend (not_atEnd_of_dueEvent hd e)
    | some d => exact ⟨d, atEnd_of_dueEvent hd, by simp only [step, hidle, hd]⟩
  · intro less record session port
    have none : dueEvent s = none := by
      cases hd : dueEvent s with
      | none => rfl
      | some d => exact absurd ⟨d, atEnd_of_dueEvent hd⟩ hnone
    have idle : step s = .next (advance s) := by simp only [step, hidle, none]
    have records : Record.tick = record := by
      funext ⟨_, _, _, st, _, _, _, _, _, _, _, _, _, _, _, _, _⟩
      cases st <;> rfl
    have charges (c : Charge) : c.tick = session c := c.tick_eq
    have exchange : s.hinge.exch.tick = match s.hinge.exch with
        | .window left begun => .window (left - 1000) begun
        | .polling sent => .polling sent
        | .ended => .ended := by
      cases s.hinge.exch <;> rfl
    rw [idle, advance, Table.tick, records, charges, charges, Hinge.tick, exchange]
    rfl

end Sys2Proof.Machine
end

section
/-! The budget pass by its stages, and what it publishes of its capability (2.1 to 2.3, 2.7, 8.7). -/

namespace Sys2Proof.Machine

/-! ### The stages of a pass by name (R32) -/

/-- The capability figures of a pass, taken after its droop step (R33 to R39). -/
def passFigures (s : State) : Capability := capability (droopStep s)

/-- The shedding stage of a pass, on the table as the equalizer stage leaves it (R40 to R43). -/
def passShed (s : State) : Shed :=
  shedStage (shedLevel (passFigures s) s.lim) s.load.U (equalizerStage s.load.U (droopStep s))

/-- The admission stage of a pass (R45 to R47). -/
def passWalk (s : State) : Walk := admitStage (admitLevel (passFigures s) s.lim) s.load.U (passShed s).st

/-- The split stage of a pass (R51 to R61). -/
def passSplit (s : State) : SplitOut := splitStage (passFigures s) s.load.U (passWalk s).st

theorem lim_droopStep (s : State) : (droopStep s).lim = s.lim := by rw [droopStep_frame]

theorem load_droopStep (s : State) : (droopStep s).load = s.load := by rw [droopStep_frame]

theorem budgetPass_eq (s : State) :
    budgetPass s = publishStage (passFigures s) s.load.U (passShed s).n (passWalk s).n (passSplit s) := by
  unfold passSplit passWalk passShed passFigures
  rw [← lim_droopStep, ← load_droopStep]
  rfl

/-- Both timers bring the pass (R28). -/
theorem exec_of_passDue {s : State} {row : Instr} (h : passDue s row) : exec row s = .next (budgetPass s) := by
  rcases h with ⟨rfl, htimer⟩ | ⟨rfl, hdelay⟩
  · exact congrArg _ (if_pos htimer)
  · exact congrArg _ (if_pos hdelay)

/-! ### What the stages leave alone -/

theorem sameButTable_passShed (s : State) : sameButTable (droopStep s) (passShed s).st :=
  sameButTable_trans (equalizerStage_frame _ _) (shedStage_frame _ _ _)

theorem sameButTable_passWalk (s : State) : sameButTable (droopStep s) (passWalk s).st :=
  sameButTable_trans (sameButTable_passShed s) (admitStage_frame _ _ _)

theorem sameButTable_passSplit (s : State) : sameButTable (droopStep s) (passSplit s).st :=
  sameButTable_trans (sameButTable_passWalk s) (splitStage_frame _ _ _)

/-- A state that the stages of a pass leave, by what they move of the state before it. -/
theorem eq_of_sameButTable_droopStep {s t : State} (h : sameButTable (droopStep s) t) :
    t = { s with port := (droopStep s).port, resv := t.resv, cond := t.cond } := by
  unfold sameButTable at h
  rw [droopStep_frame] at h
  exact h

/-- Of the condition unit a pass moves the latched flags and the counters alone. -/
def sameMasks (s t : State) : Prop := t.cond = { s.cond with latched := t.cond.latched, cnt := t.cond.cnt }

theorem sameMasks_trans {s t u : State} (h : sameMasks s t) (g : sameMasks t u) : sameMasks s u := by
  unfold sameMasks at *
  rw [g, h]

theorem sameMasks_of_cond_eq {s t : State} (h : t.cond = s.cond) : sameMasks s t := by
  unfold sameMasks
  rw [h]

theorem cond_equalizerStage (u : Nat) (s : State) : (equalizerStage u s).cond = s.cond := by
  unfold equalizerStage
  split
  · split <;> rfl
  · split <;> rfl

theorem cond_shedVerdict (k : Fin 24) (s : State) : (shedVerdict k s).cond = s.cond := by
  unfold shedVerdict
  split <;> rfl

theorem cond_noRoomVerdict (k : Fin 24) (s : State) : (noRoomVerdict k s).cond = s.cond := by
  unfold noRoomVerdict
  split
  · rfl
  · split <;> rfl

theorem cond_grantVerdict (k : Fin 24) (s : State) : (grantVerdict k s).cond = s.cond := by
  unfold grantVerdict
  split <;> rfl

theorem cond_walkStep (level : Int) (u : Nat) (w : Walk) (c : Candidate) : (walkStep level u w c).st.cond = w.st.cond := by
  unfold walkStep
  split
  · exact cond_noRoomVerdict _ _
  · split
    · exact cond_grantVerdict _ _
    · exact cond_noRoomVerdict _ _

theorem cond_admitStage (level : Int) (u : Nat) (s : State) : (admitStage level u s).st.cond = s.cond := by
  have walk (cs : List Candidate) (w : Walk) : (cs.foldl (walkStep level u) w).st.cond = w.st.cond := by
    induction cs generalizing w with
    | nil => rfl
    | cons c cs ih => exact (ih _).trans (cond_walkStep level u w c)
  exact walk (candidates s) ⟨s, none, 0⟩

theorem cond_splitStage (c : Capability) (u : Nat) (s : State) : (splitStage c u s).st.cond = s.cond := by
  rcases splitStage_st c u s with h | h <;> rw [h]
  rfl

theorem sameMasks_shedLoop (level : Int) (u n : Nat) (w : Shed) : sameMasks w.st (shedLoop level u n w).st := by
  induction n generalizing w with
  | zero => rfl
  | succ n ih =>
    unfold shedLoop
    split
    · rfl
    · split
      · rfl
      · rename_i k r _
        have counted : sameMasks (shedVerdict k w.st) (count .recordsShed (shedVerdict k w.st)) := rfl
        exact sameMasks_trans (sameMasks_of_cond_eq (cond_shedVerdict k w.st)) (sameMasks_trans counted (ih _))

theorem sameMasks_shedStage (level : Int) (u : Nat) (s : State) : sameMasks s (shedStage level u s).st := by
  have loop := sameMasks_shedLoop level u 24 ⟨s, 0, false⟩
  have latched (c : Condition) {t : State} (h : sameMasks s t) : sameMasks s (latch c t) := sameMasks_trans h rfl
  unfold shedStage
  dsimp only
  split <;> split
  · exact latched _ loop
  · exact latched _ (latched _ loop)
  · exact loop
  · exact latched _ loop

theorem cond_passSplit (s : State) : (passSplit s).st.cond = (passShed s).st.cond :=
  (cond_splitStage _ _ _).trans (cond_admitStage _ _ _)

theorem sameMasks_passSplit (s : State) : sameMasks s (passSplit s).st := by
  have equalizer : (equalizerStage s.load.U (droopStep s)).cond = s.cond :=
    (cond_equalizerStage _ _).trans (by rw [droopStep_frame])
  exact sameMasks_trans (sameMasks_of_cond_eq equalizer)
    (sameMasks_trans (sameMasks_shedStage _ _ _) (sameMasks_of_cond_eq (cond_passSplit s)))

/-- What a pass leaves, with the table, the ports and the condition unit by its stages. -/
theorem budgetPass_frame (s : State) :
    budgetPass s =
      { s with
        resv := (passSplit s).st.resv
        budget := (budgetPass s).budget
        port := (droopStep s).port
        cond := { s.cond with latched := (passSplit s).st.cond.latched, cnt := (passSplit s).st.cond.cnt } } := by
  have moved := eq_of_sameButTable_droopStep (sameButTable_passSplit s)
  rw [sameMasks_passSplit s] at moved
  have published : budgetPass s = { (passSplit s).st with budget := (budgetPass s).budget } := by
    rw [budgetPass_eq]
    rfl
  exact published.trans (congrArg (fun t : State => { t with budget := (budgetPass s).budget }) moved)

/-- A state that differs from another in some parts alone, with those parts by its own. -/
theorem eq_of_frame {s t : State} {R : Table} {B : Budget} {P : PerPort Port} {l : BitVec 26} {c : Counters}
    (h : t = { s with resv := R, budget := B, port := P, cond := { s.cond with latched := l, cnt := c } }) :
    t = { s with
      resv := t.resv, budget := t.budget, port := t.port
      cond := { s.cond with latched := t.cond.latched, cnt := t.cond.cnt } } := by
  subst h
  rfl

/-- The figures that a pass publishes (R48). -/
theorem pub_budgetPass (s : State) : (budgetPass s).budget.pub =
    publishedOf (passFigures s) s.load.U (passShed s).n (passWalk s).n (passSplit s) := by
  rw [budgetPass_eq]
  rfl

theorem publishStage_budget (c : Capability) (u shed grants : Nat) (o : SplitOut) :
    (publishStage c u shed grants o).budget = { o.st.budget with
      pub := (publishStage c u shed grants o).budget.pub, seq := o.st.budget.seq + 1, mark := false, delay := none
      passTimer := 20, cmd := (publishStage c u shed grants o).budget.cmd
      inputCmd := (publishStage c u shed grants o).budget.inputCmd } := rfl

/-- What a pass moves of the budget unit (R28, R48). -/
theorem budget_budgetPass (s : State) : (budgetPass s).budget = { s.budget with
    pub := (budgetPass s).budget.pub, seq := s.budget.seq + 1, mark := false, delay := none, passTimer := 20
    cmd := (budgetPass s).budget.cmd, inputCmd := (budgetPass s).budget.inputCmd } := by
  have kept : (passSplit s).st.budget = s.budget := by rw [eq_of_sameButTable_droopStep (sameButTable_passSplit s)]
  have published := publishStage_budget (passFigures s) s.load.U (passShed s).n (passWalk s).n (passSplit s)
  rw [← budgetPass_eq, kept] at published
  exact published

/-! ### The split stage by its branches (R55) -/

/-- The draw E of the equalizing record is above 0 only where slot 0 holds a GRANTED record of that draw. -/
theorem record_of_equalizerDraw_ne {s : State} (h : equalizerDraw s ≠ 0) :
    ∃ r, recordOf s 0 = some r ∧ r.st = .granted ∧ r.draw = equalizerDraw s := by
  cases hr : recordOf s 0 with
  | none => exact absurd (grantedDraw_eq_zero (by simp [hr])) h
  | some r =>
    have hst : r.st = .granted := by
      by_contra hne
      exact h (grantedDraw_eq_zero fun q hq => by rw [hr] at hq; cases hq; exact hne)
    exact ⟨r, rfl, hst, (grantedDraw_of_granted hr hst).symm⟩

theorem equalizerDraw_freeSlot (s : State) : equalizerDraw (freeSlot 0 s) = 0 :=
  grantedDraw_eq_zero (by simp [recordOf_freeSlot])

/-- The split stage: no transfer, one that its source cell cannot carry, and one it can (R55). -/
theorem splitStage_cases (c : Capability) (u : Nat) (s : State) :
    (equalizerDraw s = 0 ∧ splitStage c u s = plainSplit c (netPower c s u) s) ∨
    ∃ r, recordOf s 0 = some r ∧ r.st = .granted ∧ r.draw = equalizerDraw s ∧ 0 < equalizerDraw s ∧
      ((sourceCap c (r.dir.getD .aToB) < equalizerDraw s ∧
          splitStage c u s = stoppedSplit c (netPower c s u) (freeSlot 0 s)) ∨
        (equalizerDraw s ≤ sourceCap c (r.dir.getD .aToB) ∧
          splitStage c u s = transferSplit c (netPower c s u) (equalizerDraw s) (r.dir.getD .aToB) s)) := by
  by_cases he : equalizerDraw s = 0
  · exact .inl ⟨he, if_pos he⟩
  · obtain ⟨r, hr, hst, hdraw⟩ := record_of_equalizerDraw_ne he
    refine .inr ⟨r, hr, hst, hdraw, Nat.pos_of_ne_zero he, ?_⟩
    have stage : splitStage c u s = if sourceCap c (r.dir.getD .aToB) < equalizerDraw s then
        stoppedSplit c (netPower c s u) (freeSlot 0 s)
        else transferSplit c (netPower c s u) (equalizerDraw s) (r.dir.getD .aToB) s := by
      refine (if_neg he).trans ?_
      rw [hr]
      rfl
    by_cases hcap : sourceCap c (r.dir.getD .aToB) < equalizerDraw s
    · exact .inl ⟨hcap, stage.trans (if_pos hcap)⟩
    · exact .inr ⟨Nat.le_of_not_lt hcap, stage.trans (if_neg hcap)⟩

/-- The record in slot 0 has direction `bToA` or is worked as one of direction `aToB`. -/
theorem getD_aToB_cases (d : Option Dir) :
    (d = some .bToA ∧ d.getD .aToB = .bToA) ∨ (d ≠ some .bToA ∧ d.getD .aToB = .aToB) := by
  rcases d with _ | _ | _ <;> simp

/-! ### What a stage's state reads as the state before the pass -/

section
variable {s t : State} (h : sameButTable (droopStep s) t)
include h

theorem chgCeiling_of_stage (x : Cell) : chgCeiling t x = ichg s x := by
  rw [ichg_eq, eq_of_sameButTable_droopStep h]
  rfl

theorem equalizingCeiling_of_stage (x : Cell) : equalizingCeiling t x = s.lim.fastI.get x * zoneFraction s x / 256 := by
  rw [zoneFraction_eq, eq_of_sameButTable_droopStep h]
  rfl

end

/-! ### The figures (R33 to R39, R141) -/

theorem activePort_eq_none {s : State} (h : ∀ p, s.arb.st ≠ .active p) : activePort s = none := by
  unfold activePort
  split
  · next p hp => exact absurd hp (h p)
  · rfl
  · rfl

theorem droopStep_of_no_port {s : State} (h : activePort s = none) : droopStep s = s := by
  unfold droopStep
  rw [h]

theorem droopStep_of_active {s : State} {p : PortId} (h : s.arb.st = .active p) :
    droopStep s = match (s.port.get p).held with
      | none => s
      | some c =>
        { s with
          port := s.port.set p
            { s.port.get p with ie := droopIe (portCeiling s p) s.lim.droopMargin c (s.port.get p).vin (s.port.get p).ie } } := by
  have hp : activePort s = some p := (activePort_eq_some s p).mpr h
  cases hc : (s.port.get p).held <;> simp only [droopStep, hp, hc]

/-- S of the active port under the Ie that the droop step leaves (R34). -/
theorem passFigures_S (s : State) :
    (passFigures s).S = match s.arb.st with
      | .active q =>
        match (s.port.get q).held with
        | some h => h.v * ((droopStep s).port.get q).ie / 1000 * s.lim.etaIn / 256
        | none => 0
      | .none => 0
      | .changeover => 0 := by
  cases ha : s.arb.st with
  | none => exact capability_S_of_no_port (by rw [droopStep_of_no_port] <;> simp [activePort, ha])
  | changeover => exact capability_S_of_no_port (by rw [droopStep_of_no_port] <;> simp [activePort, ha])
  | active q =>
    have hd := droopStep_of_active ha
    cases hh : (s.port.get q).held with
    | none =>
      rw [hh] at hd
      simp [passFigures, hd, capability, sourceAllowance, activeVc, activePort, ha, hh]
    | some c =>
      rw [hh] at hd
      have hq (x : Port) : (s.port.set q x).get q = x := by cases q <;> rfl
      simp [passFigures, hd, capability, sourceAllowance, activeVc, activeIe, activePort, ha, hh, hq]

/-- The droop step moves the Ie of the active port that holds a contract (R141). -/
theorem port_droopStep (s : State) :
    (droopStep s).port = match s.arb.st with
      | .active q =>
        match (s.port.get q).held with
        | some h => s.port.set q
            { s.port.get q with ie := droopIe (portCeiling s q) s.lim.droopMargin h (s.port.get q).vin (s.port.get q).ie }
        | none => s.port
      | .none => s.port
      | .changeover => s.port := by
  cases ha : s.arb.st with
  | none => rw [droopStep_of_no_port (activePort_eq_none (by simp [ha]))]
  | changeover => rw [droopStep_of_no_port (activePort_eq_none (by simp [ha]))]
  | active q =>
    rw [droopStep_of_active ha]
    dsimp only
    cases (s.port.get q).held <;> rfl

/-- The cells' part of the capability figures, by the discharge limits of R86 (R35, R36). -/
theorem passFigures_cells (s : State) :
    let c := passFigures s
    c.dA = cellVolt s .A * idis s .A / 1000 ∧ c.dB = cellVolt s .B * idis s .B / 1000 ∧
    c.rh = (if s.budget.fold = .folded then s.lim.hingeRFolded else s.lim.hingeROpen) ∧
    c.lossMax = idis s .B * idis s .B * c.rh / 1000000 ∧ c.dBn = c.dB - c.lossMax ∧ c.T = c.S + c.dA + c.dBn ∧
    c.disLim = ⟨idis s .A, idis s .B⟩ ∧ c.volt = ⟨cellVolt s .A, cellVolt s .B⟩ := by
  have hrh : hingeR s = if s.budget.fold = .folded then s.lim.hingeRFolded else s.lim.hingeROpen := by
    unfold hingeR
    cases s.budget.fold <;> rfl
  rw [← hrh, idis_eq, idis_eq, passFigures, droopStep_frame]
  exact ⟨rfl, rfl, rfl, rfl, rfl, rfl, rfl, rfl⟩

/-- The charge ceilings of a pass (R67, R102). -/
theorem passSplit_chgCeil (s : State) :
    (equalizerDraw (passSplit s).st = 0 → (passSplit s).chgCeil = ⟨ichg s .A, ichg s .B⟩) ∧
    (∀ r, recordOf (passSplit s).st 0 = some r → 0 < equalizerDraw (passSplit s).st →
      (passSplit s).chgCeil = if r.dir = some .bToA then ⟨s.lim.fastI.a * zoneFraction s .A / 256, ichg s .B⟩
        else ⟨ichg s .A, s.lim.fastI.b * zoneFraction s .B / 256⟩) := by
  have ceil := chgCeiling_of_stage (sameButTable_passWalk s)
  have equalizing := equalizingCeiling_of_stage (sameButTable_passWalk s)
  rw [← ceil, ← ceil]
  unfold passSplit
  rcases splitStage_cases (passFigures s) s.load.U (passWalk s).st with
    ⟨hzero, hsplit⟩ | ⟨r, hr, -, -, hpos, ⟨-, hsplit⟩ | ⟨-, hsplit⟩⟩ <;> rw [hsplit]
  · unfold plainSplit
    split
    · exact ⟨fun _ => rfl, fun _ _ h => absurd hzero h.ne'⟩
    · exact ⟨fun _ => rfl, fun _ _ h => absurd hzero h.ne'⟩
  · exact ⟨fun _ => rfl, fun _ _ h => absurd (equalizerDraw_freeSlot (passWalk s).st) h.ne'⟩
  · rw [transferSplit_st]
    refine ⟨fun h => absurd h hpos.ne', fun q hq _ => ?_⟩
    obtain rfl : r = q := Option.some.inj (hr.symm.trans hq)
    rcases getD_aToB_cases r.dir with ⟨hd, hg⟩ | ⟨hd, hg⟩ <;> rw [hg]
    · rw [if_pos hd, transferSplit, equalizing]
      rfl
    · rw [if_neg hd, transferSplit, equalizing]
      rfl

/-- Settles O28: the figures are those of the capability stage, and the later stages move the table, the commands and the condition
unit alone. -/
theorem passPublishesItsCapability : Obligations.PassPublishesItsCapability := by
  refine fun s => ⟨fun h => congrArg _ (if_neg h), fun h => congrArg _ (if_neg h), fun row hdue =>
    ⟨budgetPass s, exec_of_passDue hdue, ?_⟩⟩
  have frame := budgetPass_frame s
  have ports : (budgetPass s).port = (droopStep s).port := by rw [frame]
  have budget := budget_budgetPass s
  have seq : (budgetPass s).budget.seq = s.budget.seq + 1 := congrArg Budget.seq budget
  obtain ⟨hdA, hdB, hrh, hloss, hdBn, hT, hdis, -⟩ := passFigures_cells s
  obtain ⟨hceil, hequalizing⟩ := passSplit_chgCeil s
  have hL : grantedSum (budgetPass s) = grantedSum (passSplit s).st := grantedSum_congr (by rw [frame])
  have hslot : slotOf (budgetPass s) 0 = slotOf (passSplit s).st 0 := by rw [frame]; rfl
  have hfold : (passSplit s).st.budget = s.budget := by rw [eq_of_sameButTable_droopStep (sameButTable_passSplit s)]
  have hlim : (passSplit s).st.lim = s.lim := by rw [eq_of_sameButTable_droopStep (sameButTable_passSplit s)]
  intro p
  have hp : p = publishedOf (passFigures s) s.load.U (passShed s).n (passWalk s).n (passSplit s) := pub_budgetPass s
  rw [hp, publishedOf, ports, hL, recordOf, equalizerDraw, hslot, hfold, hlim]
  refine ⟨passFigures_S s, port_droopStep s, hdA, hdB, hrh, hloss, hdBn, hT, rfl, rfl, rfl, rfl, rfl, rfl, hdis, hceil,
    hequalizing, seq, ?_⟩
  have self := eq_of_frame frame
  rw [budget, ports, ← seq] at self
  exact self

end Sys2Proof.Machine
end

section
/-! What the shedding stage of a pass leaves: the records shed are exactly those at which the granted sum still stands above the level
in shed order (2.5). -/

namespace Sys2Proof.Machine

/-! ### Shed order (R42) -/

theorem standsBefore_iff (j : Fin 24) (q : Record) (k : Fin 24) (r : Record) :
    standsBefore j q k r = true ↔ q.prio < r.prio ∨ (q.prio = r.prio ∧
      (r.grantStamp.getD 0 < q.grantStamp.getD 0 ∨ (r.grantStamp.getD 0 = q.grantStamp.getD 0 ∧ k.val < j.val))) := by
  simp [standsBefore]

theorem standsBefore_eq_false_iff (j : Fin 24) (q : Record) (k : Fin 24) (r : Record) :
    standsBefore j q k r = false ↔ r.prio < q.prio ∨ (r.prio = q.prio ∧
      (q.grantStamp.getD 0 < r.grantStamp.getD 0 ∨ (q.grantStamp.getD 0 = r.grantStamp.getD 0 ∧ j.val ≤ k.val))) := by
  rw [← Bool.not_eq_true, standsBefore_iff]
  omega

theorem standsBefore_self (k : Fin 24) (r : Record) : standsBefore k r k r = false := by
  rw [standsBefore_eq_false_iff]
  omega

theorem standsBefore_asymm {j k : Fin 24} {q r : Record} (h : standsBefore j q k r = true) : standsBefore k r j q = false := by
  rw [standsBefore_iff] at h
  rw [standsBefore_eq_false_iff]
  omega

theorem standsBefore_of_ne {j k : Fin 24} {q r : Record} (hne : j ≠ k) (h : standsBefore j q k r = false) :
    standsBefore k r j q = true := by
  have hval : j.val ≠ k.val := fun e => hne (Fin.ext e)
  rw [standsBefore_eq_false_iff] at h
  rw [standsBefore_iff]
  omega

/-- Not to stand before is transitive: shed order is a total order. -/
theorem standsBefore_eq_false_trans {i j k : Fin 24} {p q r : Record} (h : standsBefore i p j q = false)
    (g : standsBefore j q k r = false) : standsBefore i p k r = false := by
  rw [standsBefore_eq_false_iff] at *
  omega

theorem standsBefore_trans {i j k : Fin 24} {p q r : Record} (h : standsBefore i p j q = true) (g : standsBefore j q k r = true) :
    standsBefore i p k r = true := by
  rw [standsBefore_iff] at *
  omega

theorem shedBefore_eq (k : Fin 24) (r : Record) (j : Fin 24) (q : Record) : shedBefore k r j q = standsBefore k r j q := by
  rw [Bool.eq_iff_iff, standsBefore_iff]
  simp [shedBefore, eq_comm (a := r.grantStamp.getD 0)]

/-- The record of a step of the search is the one before or after it that stands before the other. -/
theorem not_before_pickShed {best : Option (Fin 24 × Record)} {k : Fin 24} {sl : Slot} {i : Fin 24} {p : Record}
    (h : pickShed best k sl = some (i, p)) :
    (∀ q, sl.record = some q → q.st = .granted → standsBefore k q i p = false) ∧
      ∀ j q, best = some (j, q) → standsBefore j q i p = false := by
  cases hr : sl.record with
  | none =>
    have kept : best = some (i, p) := by simpa [pickShed, hr] using h
    refine ⟨by simp, fun j q hb => ?_⟩
    cases kept.symm.trans hb
    exact standsBefore_self i p
  | some r =>
    by_cases hst : r.st = .granted
    · cases best with
      | none =>
        simp only [pickShed, hr, hst, if_true, Option.some.injEq, Prod.mk.injEq] at h
        obtain ⟨rfl, rfl⟩ := h
        refine ⟨fun q hq _ => ?_, by simp⟩
        cases hq
        exact standsBefore_self _ _
      | some b =>
        obtain ⟨j, q⟩ := b
        simp only [pickShed, hr, hst, if_true, shedBefore_eq] at h
        split at h
        · next before =>
          cases h
          refine ⟨fun q' hq _ => ?_, fun j' q' hb => ?_⟩
          · cases hq
            exact standsBefore_self _ _
          · cases hb
            exact standsBefore_asymm before
        · next after =>
          cases h
          refine ⟨fun q' hq _ => ?_, fun j' q' hb => ?_⟩
          · cases hq
            exact Bool.eq_false_iff.mpr after
          · cases hb
            exact standsBefore_self _ _
    · have kept : best = some (i, p) := by simpa [pickShed, hr, hst] using h
      refine ⟨fun q hq hg => ?_, fun j q hb => ?_⟩
      · cases hq
        exact absurd hg hst
      · cases kept.symm.trans hb
        exact standsBefore_self i p

/-- No record of the slots searched, nor the one the search began with, stands before the one it ends with. -/
theorem not_before_foldl_pickShed {s : State} (l : List (Fin 24)) {best : Option (Fin 24 × Record)} {i : Fin 24} {p : Record}
    (h : l.foldl (fun b k => pickShed b k (slotOf s k)) best = some (i, p)) :
    (∀ j ∈ l, ∀ q, recordOf s j = some q → q.st = .granted → standsBefore j q i p = false) ∧
      ∀ j q, best = some (j, q) → standsBefore j q i p = false := by
  induction l generalizing best with
  | nil =>
    refine ⟨by simp, fun j q hb => ?_⟩
    cases hb.symm.trans h
    exact standsBefore_self _ _
  | cons k l ih =>
    obtain ⟨hl, hpick⟩ := ih h
    have after {j : Fin 24} {q : Record}
        (hstep : ∀ i' p', pickShed best k (slotOf s k) = some (i', p') → standsBefore j q i' p' = false)
        (hnone : pickShed best k (slotOf s k) ≠ none) : standsBefore j q i p = false := by
      obtain ⟨⟨i', p'⟩, hp⟩ := Option.ne_none_iff_exists'.mp hnone
      exact standsBefore_eq_false_trans (hstep i' p' hp) (hpick i' p' hp)
    refine ⟨List.forall_mem_cons.mpr ⟨fun q hq hst => ?_, hl⟩, fun j q hb => ?_⟩
    · refine after (fun i' p' hp => (not_before_pickShed hp).1 q hq hst) fun hnone => ?_
      rcases pickShed_cases best k (slotOf s k) with ⟨r, -, -, hp⟩ | ⟨hp, hno⟩
      · rw [hnone] at hp
        cases hp
      · exact hno (hp.symm.trans hnone) q hq hst
    · refine after (fun i' p' hp => (not_before_pickShed hp).2 j q hb) fun hnone => ?_
      rcases pickShed_cases best k (slotOf s k) with ⟨r, -, -, hp⟩ | ⟨hp, -⟩
      · rw [hnone] at hp
        cases hp
      · rw [hp, hb] at hnone
        cases hnone

/-- The first record in shed order stands before every other GRANTED one (R42). -/
theorem standsBefore_of_firstToShed {s : State} {k j : Fin 24} {r q : Record} (h : firstToShed s = some (k, r))
    (hq : recordOf s j = some q) (hst : q.st = .granted) (hne : j ≠ k) : standsBefore k r j q = true :=
  standsBefore_of_ne hne ((not_before_foldl_pickShed _ h).1 j (List.mem_finRange j) q hq hst)

/-! ### The granted sum from a record on -/

theorem sumFrom_le (s : State) (k : Fin 24) (r : Record) : sumFrom s k r ≤ grantedSum s := by
  rw [grantedSum_eq]
  refine List.sum_le_sum fun j _ => ?_
  cases hj : recordOf s j with
  | none => exact Nat.zero_le _
  | some q =>
    rw [grantedDraw_of_recordOf hj]
    dsimp only
    split
    · next h => rw [if_pos h.1]
    · exact Nat.zero_le _

/-- Shed order counts more of the granted sum at a record that stands before another. -/
theorem sumFrom_le_of_standsBefore (s : State) {j k : Fin 24} {q r : Record} (h : standsBefore j q k r = true) :
    sumFrom s k r ≤ sumFrom s j q := by
  refine List.sum_le_sum fun i _ => ?_
  cases recordOf s i with
  | none => exact Nat.le_refl _
  | some p =>
    dsimp only
    split
    · next hp =>
      rw [if_pos ⟨hp.1, standsBefore_eq_false_trans hp.2 (standsBefore_asymm h)⟩]
    · exact Nat.zero_le _

theorem sumFrom_of_firstToShed {s : State} {k : Fin 24} {r : Record} (h : firstToShed s = some (k, r)) :
    sumFrom s k r = grantedSum s := by
  rw [grantedSum_eq]
  refine congrArg List.sum (List.map_congr_left fun j _ => ?_)
  cases hj : recordOf s j with
  | none => exact (grantedDraw_eq_zero (by simp [hj])).symm
  | some q =>
    rw [grantedDraw_of_recordOf hj]
    refine if_congr (and_iff_left_of_imp fun hst => ?_) rfl rfl
    exact (not_before_foldl_pickShed _ h).1 j (List.mem_finRange j) q hj hst


/-! ### One shed verdict -/

theorem isShed_of_record {s : State} {k : Fin 24} {r : Record} (hr : recordOf s k = some r) (level : Int) (u : Nat) :
    isShed s level u k = decide (r.st = .granted ∧ 0 < sumFrom s k r ∧ level < sumFrom s k r + u) := by
  unfold isShed
  rw [hr]

theorem recordOf_shedVerdict {s : State} {k : Fin 24} {r : Record} (hr : recordOf s k = some r) (j : Fin 24) :
    recordOf (shedVerdict k s) j = if j = k then some (afterShed k r) else recordOf s j := by
  unfold shedVerdict
  rw [hr]
  exact recordOf_putRecord k j (r.shed k) s

theorem slotOf_shedVerdict {s : State} {k : Fin 24} {r : Record} (hr : recordOf s k = some r) (j : Fin 24) :
    slotOf (shedVerdict k s) j = if j = k then ⟨(slotOf s k).gen, some (afterShed k r)⟩ else slotOf s j := by
  unfold shedVerdict
  rw [hr]
  exact slotOf_putRecord k j (r.shed k) s

section
variable {s : State} {k : Fin 24} {r : Record} (hfirst : firstToShed s = some (k, r))
include hfirst

/-- The first verdict takes nothing from the sum at the records behind it. -/
theorem sumFrom_shedVerdict {j : Fin 24} {q : Record} (hq : recordOf s j = some q) (hst : q.st = .granted) (hne : j ≠ k) :
    sumFrom (shedVerdict k s) j q = sumFrom s j q := by
  obtain ⟨hr, -⟩ := firstToShed_eq_some hfirst
  refine congrArg List.sum (List.map_congr_left fun i _ => ?_)
  rw [recordOf_shedVerdict hr]
  by_cases hi : i = k
  · have before := standsBefore_of_firstToShed hfirst hq hst hne
    rw [if_pos hi, hi, hr]
    simp [afterShed, before]
  · rw [if_neg hi]

/-- After the first verdict the records still to be shed are the others of those that were. -/
theorem isShed_shedVerdict (level : Int) (u : Nat) (j : Fin 24) :
    isShed (shedVerdict k s) level u j = (isShed s level u j && j != k) := by
  obtain ⟨hr, -⟩ := firstToShed_eq_some hfirst
  have hrec := recordOf_shedVerdict hr j
  by_cases hj : j = k
  · rw [if_pos hj] at hrec
    rw [isShed_of_record hrec, hj, bne_self_eq_false, Bool.and_false]
    exact decide_eq_false fun h => nomatch h.1
  · rw [if_neg hj] at hrec
    rw [bne_iff_ne.mpr hj, Bool.and_true]
    cases hq : recordOf s j with
    | none => simp only [isShed, hrec, hq]
    | some q =>
      rw [isShed_of_record hq, isShed_of_record (hrec.trans hq)]
      by_cases hst : q.st = .granted
      · rw [sumFrom_shedVerdict hfirst hq hst hj]
      · rw [decide_eq_false fun h => hst h.1, decide_eq_false fun h => hst h.1]

theorem isShed_of_firstToShed {level : Int} {u : Nat} (hsum : ¬((grantedSum s : Int) + u ≤ level ∨ grantedSum s = 0)) :
    isShed s level u k = true := by
  obtain ⟨hr, hst⟩ := firstToShed_eq_some hfirst
  have hlevel := sumFrom_of_firstToShed hfirst
  simp only [isShed, hr, hst, hlevel, true_and, decide_eq_true_eq]
  omega

end

/-- Within the level, or with nothing granted, no record is shed (R41). -/
theorem isShed_eq_false {s : State} {level : Int} {u : Nat} (h : (grantedSum s : Int) + u ≤ level ∨ grantedSum s = 0)
    (k : Fin 24) : isShed s level u k = false := by
  cases hr : recordOf s k with
  | none => simp only [isShed, hr]
  | some r =>
    have hle := sumFrom_le s k r
    simp only [isShed, hr, decide_eq_false_iff_not, not_and, not_lt]
    omega

/-! ### The loop -/

/-- The slots that are shed, in slot order. -/
def shedSlots (s : State) (level : Int) (u : Nat) : List (Fin 24) := (List.finRange 24).filter fun k => isShed s level u k

theorem mem_shedSlots {s : State} {level : Int} {u : Nat} {k : Fin 24} :
    k ∈ shedSlots s level u ↔ isShed s level u k = true := by
  simp [shedSlots]

theorem shedSlots_eq_nil {s : State} {level : Int} {u : Nat} (h : ∀ k, isShed s level u k = false) : shedSlots s level u = [] :=
  List.filter_eq_nil_iff.mpr fun k _ => by simp [h k]

theorem shedSlots_perm {s t : State} {level : Int} {u : Nat} {k : Fin 24} (hk : isShed s level u k = true)
    (ht : ∀ j, isShed t level u j = (isShed s level u j && j != k)) :
    (shedSlots s level u).Perm (k :: shedSlots t level u) := by
  have nodup (s : State) : (shedSlots s level u).Nodup := (List.nodup_finRange 24).filter _
  refine (List.perm_ext_iff_of_nodup (nodup s) (List.nodup_cons.mpr ⟨?_, nodup t⟩)).mpr fun j => ?_
  · simp [mem_shedSlots, ht]
  · rw [List.mem_cons, mem_shedSlots, mem_shedSlots, ht]
    by_cases hj : j = k
    · simp [hj, hk]
    · simp [hj]

/-- A record that is shed has the priority at which BUDGET_CRITICAL is latched (R43). -/
def critical (s : State) (shed : List (Fin 24)) : Prop := ∃ k ∈ shed, (recordOf s k).any (fun r => r.prio == 7) = true

/-- What shedding from `w` on leaves: exactly the records to be shed take their verdicts, each counted once. -/
structure Sheds (level : Int) (u : Nat) (w w' : Shed) : Prop where
  slots : ∀ k, slotOf w'.st k =
    if isShed w.st level u k then ⟨(slotOf w.st k).gen, (recordOf w.st k).map (afterShed k)⟩ else slotOf w.st k
  stamps : w'.st.resv = { w.st.resv with slots := w'.st.resv.slots }
  n : w'.n = w.n + (shedSlots w.st level u).length
  crit : w'.crit = true ↔ w.crit = true ∨ critical w.st (shedSlots w.st level u)
  cond : w'.st.cond = { w.st.cond with
    cnt := { w.st.cond.cnt with
      recordsShed := max w.st.cond.cnt.recordsShed
        (min 255 (w.st.cond.cnt.recordsShed + (shedSlots w.st level u).length)) } }

theorem Sheds.refl {level : Int} {u : Nat} {w : Shed} (h : ∀ k, isShed w.st level u k = false) : Sheds level u w w := by
  have nil := shedSlots_eq_nil h
  constructor
  case slots => exact fun k => by rw [h k]; rfl
  case stamps => rfl
  case n => rw [nil]; rfl
  case crit => simp [nil, critical]
  case cond =>
    have same : max w.st.cond.cnt.recordsShed (min 255 (w.st.cond.cnt.recordsShed + 0)) = w.st.cond.cnt.recordsShed := by omega
    rw [nil, List.length_nil, same]

theorem critical_iff_of_perm {s : State} {l l' : List (Fin 24)} (h : l.Perm l') : critical s l ↔ critical s l' := by
  unfold critical
  simp only [h.mem_iff]

theorem satCount_eq (n : Nat) : satCount n = max n (min 255 (n + 1)) := by
  unfold satCount
  split <;> omega

/-- The first verdict and what follows it. -/
theorem Sheds.cons {level : Int} {u : Nat} {w w' : Shed} {k : Fin 24} {r : Record} (hfirst : firstToShed w.st = some (k, r))
    (hsum : ¬((grantedSum w.st : Int) + u ≤ level ∨ grantedSum w.st = 0))
    (h : Sheds level u ⟨count .recordsShed (shedVerdict k w.st), w.n + 1, w.crit || r.prio == 7⟩ w') : Sheds level u w w' := by
  obtain ⟨hr, -⟩ := firstToShed_eq_some hfirst
  have here : isShed w.st level u k = true := isShed_of_firstToShed hfirst hsum
  have others := isShed_shedVerdict hfirst level u
  have perm := shedSlots_perm here others
  obtain ⟨slots, stamps, n, crit, cond⟩ := h
  have length : (shedSlots w.st level u).length = (shedSlots (shedVerdict k w.st) level u).length + 1 := perm.length_eq
  constructor
  case slots =>
    intro j
    have hj : isShed (count .recordsShed (shedVerdict k w.st)) level u j = (isShed w.st level u j && j != k) := others j
    have hslot : slotOf (count .recordsShed (shedVerdict k w.st)) j =
        if j = k then ⟨(slotOf w.st k).gen, some (afterShed k r)⟩ else slotOf w.st j := slotOf_shedVerdict hr j
    have hrec : recordOf (count .recordsShed (shedVerdict k w.st)) j =
        if j = k then some (afterShed k r) else recordOf w.st j := recordOf_shedVerdict hr j
    rw [slots, hj, hslot, hrec]
    by_cases hjk : j = k
    · rw [hjk, here, hr]
      simp
    · simp [hjk]
  case stamps =>
    have kept : (shedVerdict k w.st).resv = { w.st.resv with slots := (shedVerdict k w.st).resv.slots } := by
      unfold shedVerdict
      rw [hr]
      rfl
    rw [stamps]
    exact congrArg (fun v : Table => { v with slots := w'.st.resv.slots }) kept
  case n =>
    rw [n, length]
    show w.n + 1 + (shedSlots (shedVerdict k w.st) level u).length = _
    omega
  case crit =>
    rw [crit, critical_iff_of_perm perm, Bool.or_eq_true, or_assoc]
    refine or_congr Iff.rfl ?_
    have behind (j : Fin 24) (hj : j ∈ shedSlots (shedVerdict k w.st) level u) :
        recordOf (shedVerdict k w.st) j = recordOf w.st j := by
      rw [mem_shedSlots, others, Bool.and_eq_true, bne_iff_ne] at hj
      rw [recordOf_shedVerdict hr, if_neg hj.2]
    constructor
    · rintro (hp | ⟨j, hj, hp⟩)
      · exact ⟨k, List.mem_cons_self, by rw [hr]; exact hp⟩
      · exact ⟨j, List.mem_cons_of_mem _ hj, (behind j hj) ▸ hp⟩
    · rintro ⟨j, hj, hp⟩
      rcases List.mem_cons.mp hj with rfl | hj
      · rw [hr] at hp
        exact .inl hp
      · exact .inr ⟨j, hj, (behind j hj).symm ▸ hp⟩
  case cond =>
    have kept : (count .recordsShed (shedVerdict k w.st)).cond = { w.st.cond with
        cnt := { w.st.cond.cnt with recordsShed := satCount w.st.cond.cnt.recordsShed } } :=
      congrArg (fun c : CondUnit => { c with cnt := c.cnt.bump .recordsShed }) (cond_shedVerdict k w.st)
    have sum (m n : Nat) : max (satCount m) (min 255 (satCount m + n)) = max m (min 255 (m + (n + 1))) := by
      rw [satCount_eq]
      omega
    rw [cond, length, ← sum]
    exact congrArg (fun c : CondUnit => { c with cnt := { c.cnt with 
      recordsShed := max c.cnt.recordsShed
        (min 255 (c.cnt.recordsShed + (shedSlots (shedVerdict k w.st) level u).length)) } }) kept

/-- With steps enough for the GRANTED records, the loop sheds exactly the records of R41 and R42. -/
theorem sheds_shedLoop (level : Int) (u n : Nat) (w : Shed) (hn : (grantedSlots w.st).card ≤ n) :
    Sheds level u w (shedLoop level u n w) := by
  induction n generalizing w with
  | zero =>
    have hempty : grantedSlots w.st = ∅ := Finset.card_eq_zero.mp (Nat.le_zero.mp hn)
    refine .refl (isShed_eq_false (.inr (grantedSum_eq_zero fun k r hr hst => ?_)))
    have hk : k ∈ grantedSlots w.st := mem_grantedSlots.mpr ⟨r, hr, hst⟩
    simp [hempty] at hk
  | succ n ih =>
    unfold shedLoop
    split
    · next hdone => exact .refl (isShed_eq_false hdone)
    · next hsum =>
      split
      · next hnone => exact .refl (isShed_eq_false (.inr (grantedSum_eq_zero (firstToShed_eq_none hnone))))
      · next k r hfirst =>
        obtain ⟨hr, hst⟩ := firstToShed_eq_some hfirst
        exact .cons hfirst hsum (ih _ (Nat.le_of_lt_succ ((card_grantedSlots_shedVerdict hr hst).trans_le hn)))

/-! ### The stage -/

theorem record_shedRecord {s : State} {level : Int} {u : Nat} {k : Fin 24} :
    shedRecord s level u k = if isShed s level u k then (recordOf s k).map (afterShed k) else recordOf s k := by
  unfold shedRecord
  cases isShed s level u k <;> simp

theorem Sheds.slotOf {level : Int} {u : Nat} {w w' : Shed} (h : Sheds level u w w') (k : Fin 24) :
    slotOf w'.st k = ⟨(slotOf w.st k).gen, shedRecord w.st level u k⟩ := by
  rw [h.slots, record_shedRecord]
  split <;> rfl

theorem cond_latch_ite (p : Prop) [Decidable p] (c : Condition) (t : State) :
    (if p then latch c t else t).cond = { t.cond with latched := t.cond.latched ||| (if p then c.flag else 0) } := by
  by_cases hp : p
  · rw [if_pos hp, if_pos hp]
    rfl
  · have kept : t.cond.latched ||| 0 = t.cond.latched := BitVec.or_zero
    rw [if_neg hp, if_neg hp, kept]

/-- The shedding stage latches SHED where it has shed any, and BUDGET_CRITICAL where one was of priority 7 (R43). -/
theorem cond_shedStage (level : Int) (u : Nat) (s : State) :
    let w := shedLoop level u 24 ⟨s, 0, false⟩
    (shedStage level u s).st.cond = { w.st.cond with
      latched := w.st.cond.latched ||| (if ¬w.n = 0 then 0x1#26 else 0) ||| (if w.crit then 0x2#26 else 0) } := by
  intro w
  have stage : (shedStage level u s).st =
      if w.crit then latch .budgetCritical (if ¬w.n = 0 then latch .shed w.st else w.st)
      else if ¬w.n = 0 then latch .shed w.st else w.st := by
    rw [ite_not]
    rfl
  rw [stage, cond_latch_ite, cond_latch_ite]
  rfl

/-- What the shedding stage moves: the slots, the counter and the two flags (R41 to R43). -/
theorem shedStage_spec (level : Int) (u : Nat) (s : State) [Decidable (critical s (shedSlots s level u))] :
    (∀ k, slotOf (shedStage level u s).st k = ⟨(slotOf s k).gen, shedRecord s level u k⟩) ∧
    (shedStage level u s).st.resv = { s.resv with slots := (shedStage level u s).st.resv.slots } ∧
    (shedStage level u s).n = (shedSlots s level u).length ∧
    (shedStage level u s).st.cond.cnt = { s.cond.cnt with
      recordsShed := max s.cond.cnt.recordsShed (min 255 (s.cond.cnt.recordsShed + (shedSlots s level u).length)) } ∧
    (shedStage level u s).st.cond.latched = s.cond.latched ||| (if shedSlots s level u = [] then 0 else 0x1#26) |||
      (if critical s (shedSlots s level u) then 0x2#26 else 0) := by
  have h := sheds_shedLoop level u 24 ⟨s, 0, false⟩ (Finset.card_le_univ _)
  have resv := shedStage_resv level u s
  have slots (k : Fin 24) : slotOf (shedStage level u s).st k = slotOf (shedLoop level u 24 ⟨s, 0, false⟩).st k := by
    unfold slotOf
    rw [resv]
  have n : (shedStage level u s).n = (shedSlots s level u).length := h.n.trans (Nat.zero_add _)
  have latched : (shedLoop level u 24 ⟨s, 0, false⟩).st.cond.latched = s.cond.latched :=
    h.cond ▸ rfl
  have none : (shedLoop level u 24 ⟨s, 0, false⟩).n = 0 ↔ shedSlots s level u = [] := by
    rw [← List.length_eq_zero_iff, ← n]
    rfl
  have crit : (shedLoop level u 24 ⟨s, 0, false⟩).crit = true ↔ critical s (shedSlots s level u) := by
    rw [h.crit]
    simp
  refine ⟨fun k => (slots k).trans (h.slotOf k), ?_, n, ?_, ?_⟩
  · rw [resv]
    exact h.stamps
  · rw [cond_shedStage]
    exact h.cond ▸ rfl
  · rw [cond_shedStage, latched]
    simp only [none, crit, ite_not]

end Sys2Proof.Machine
end

section
/-! What the admission walk of a pass leaves: it grants exactly the candidates of `admitsExactly`, in admission order (2.6). -/

namespace Sys2Proof.Machine

/-! ### Admission order (R45) -/

theorem walksBefore_iff (a b : Candidate) : walksBefore a b = true ↔
    b.prio < a.prio ∨ (a.prio = b.prio ∧ (a.arrival < b.arrival ∨ (a.arrival = b.arrival ∧ a.slot.val < b.slot.val))) := by
  simp [walksBefore]

theorem walksBefore_eq_false_iff (a b : Candidate) : walksBefore a b = false ↔
    a.prio < b.prio ∨ (a.prio = b.prio ∧ (b.arrival < a.arrival ∨ (a.arrival = b.arrival ∧ b.slot.val ≤ a.slot.val))) := by
  rw [← Bool.not_eq_true, walksBefore_iff]
  omega

theorem insertCandidate_sorted {c : Candidate} {l : List Candidate} (h : l.Pairwise fun a b => walksBefore b a = false) :
    (insertCandidate c l).Pairwise fun a b => walksBefore b a = false := by
  induction l with
  | nil => exact List.pairwise_singleton _ _
  | cons d l ih =>
    obtain ⟨hd, hl⟩ := List.pairwise_cons.mp h
    unfold insertCandidate
    split
    · next before =>
      refine List.pairwise_cons.mpr ⟨List.forall_mem_cons.mpr ⟨?_, fun x hx => ?_⟩, h⟩
      · rw [walksBefore_iff] at before
        rw [walksBefore_eq_false_iff]
        omega
      · have hdx := hd x hx
        rw [walksBefore_iff] at before
        rw [walksBefore_eq_false_iff] at hdx ⊢
        omega
    · next after =>
      refine List.pairwise_cons.mpr ⟨fun x hx => ?_, ih hl⟩
      rcases List.mem_cons.mp ((insertCandidate_perm c l).mem_iff.mp hx) with rfl | hx
      · exact Bool.eq_false_iff.mpr after
      · exact hd x hx

theorem candidates_sorted (s : State) : (candidates s).Pairwise fun a b => walksBefore b a = false := by
  unfold candidates
  induction (List.finRange 24).filterMap (candidateAt s) with
  | nil => exact .nil
  | cons c l ih => exact insertCandidate_sorted ih

/-- The walk takes its candidates in admission order, each slot once (R45). -/
theorem candidates_walked (s : State) : (candidates s).Pairwise fun a b => walksBefore a b = true ∧ a.slot ≠ b.slot := by
  refine ((candidates_sorted s).and (candidates_distinct s)).imp fun {a b} ⟨h, hne⟩ => ⟨?_, hne⟩
  have hval : a.slot.val ≠ b.slot.val := fun e => hne (Fin.ext e)
  rw [walksBefore_eq_false_iff] at h
  rw [walksBefore_iff]
  omega

theorem mem_candidates {s : State} {c : Candidate} : c ∈ candidates s ↔ candidateAt s c.slot = some c :=
  ⟨candidateAt_of_mem_candidates, fun h =>
    (candidates_perm s).mem_iff.mpr (List.mem_filterMap.mpr ⟨c.slot, List.mem_finRange _, h⟩)⟩

/-- A need is the claim, less the draw that a GRANTED record counts already (R45). -/
theorem needOf_eq (r : Record) : needOf r = (claimOf r).map fun d => if r.st = .granted then d - r.draw else d := by
  cases h : r.st <;> simp [needOf, claimOf, h]

/-- The candidate of a slot, by its record. -/
theorem candidateAt_eq_some_iff {s : State} {c : Candidate} : candidateAt s c.slot = some c ↔
    ∃ r, recordOf s c.slot = some r ∧ c.prio = r.prio ∧ c.arrival = r.arrival ∧ needOf r = some c.need := by
  obtain ⟨k, p, a, n⟩ := c
  cases hr : recordOf s k with
  | none => simp [candidateAt, hr]
  | some r =>
    simp only [candidateAt, hr, Option.map_eq_some_iff, Option.some.injEq, Candidate.mk.injEq]
    constructor
    · rintro ⟨m, hm, -, rfl, rfl, rfl⟩
      exact ⟨r, rfl, rfl, rfl, hm⟩
    · rintro ⟨q, rfl, hp, ha, hm⟩
      exact ⟨n, hm, trivial, hp.symm, ha.symm, rfl⟩

theorem walkedBefore_iff (j : Fin 24) (q : Record) (k : Fin 24) (r : Record) : walkedBefore j q k r = true ↔
    r.prio < q.prio ∨ (q.prio = r.prio ∧ (q.arrival < r.arrival ∨ (q.arrival = r.arrival ∧ j.val < k.val))) := by
  simp [walkedBefore]

/-! ### The verdicts -/

theorem afterWalk_true (k : Fin 24) (stamp : Nat) (r : Record) : afterWalk k true stamp r = r.grant k stamp := by
  unfold afterWalk Record.grant
  rfl

/-- The slots after a candidate's verdict (R15, R16). -/
theorem slotOf_verdict {t : State} {k : Fin 24} {r : Record} (hr : recordOf t k = some r) (b : Bool) (j : Fin 24) :
    slotOf (if b then grantVerdict k t else noRoomVerdict k t) j =
      if j = k then ⟨(slotOf t k).gen, some (afterWalk k b (nextStamp t.resv.grants) r)⟩ else slotOf t j := by
  have same : j = k → slotOf t j = ⟨(slotOf t k).gen, some r⟩ := by
    rintro rfl
    rw [← hr]
    rfl
  cases b with
  | true =>
    rw [if_pos rfl, afterWalk_true]
    unfold grantVerdict
    rw [hr]
    exact slotOf_putRecord k j _ (takeGrantStamp t)
  | false =>
    rw [if_neg Bool.false_ne_true]
    unfold noRoomVerdict afterWalk
    rw [hr]
    by_cases hst : r.st = .pending
    · simp only [hst, if_true, if_false, Bool.false_eq_true]
      exact slotOf_putRecord k j _ t
    · simp only [hst, if_false, Bool.false_eq_true]
      split
      · next hj => exact same hj
      · rfl

theorem grants_verdict {t : State} {k : Fin 24} {r : Record} (hr : recordOf t k = some r) (b : Bool) :
    (if b then grantVerdict k t else noRoomVerdict k t).resv.grants = nextStamp^[b.toNat] t.resv.grants := by
  cases b with
  | true =>
    simp only [if_true, grantVerdict, hr]
    rfl
  | false =>
    simp only [Bool.false_eq_true, if_false, noRoomVerdict, hr]
    split <;> rfl

theorem arrivals_verdict (t : State) (k : Fin 24) (b : Bool) :
    (if b then grantVerdict k t else noRoomVerdict k t).resv.arrivals = t.resv.arrivals := by
  cases b with
  | true =>
    rw [if_pos rfl]
    unfold grantVerdict
    split <;> rfl
  | false =>
    rw [if_neg Bool.false_ne_true]
    unfold noRoomVerdict
    split
    · rfl
    · split <;> rfl

/-- Whether the walk grants a candidate: not below the fence, and it fits (R46, R47). -/
def admitted (level : Int) (u : Nat) (w : Walk) (c : Candidate) : Bool :=
  !belowFence w.fence c && decide ((grantedSum w.st : Int) + u + c.need ≤ level)

theorem walkStep_st (level : Int) (u : Nat) (w : Walk) (c : Candidate) :
    (walkStep level u w c).st = if admitted level u w c then grantVerdict c.slot w.st else noRoomVerdict c.slot w.st := by
  unfold walkStep admitted
  cases belowFence w.fence c with
  | true => rfl
  | false => by_cases h : (grantedSum w.st : Int) + u + c.need ≤ level <;> simp [h]

theorem walkStep_n (level : Int) (u : Nat) (w : Walk) (c : Candidate) :
    (walkStep level u w c).n = w.n + (admitted level u w c).toNat := by
  unfold walkStep admitted
  cases belowFence w.fence c with
  | true => rfl
  | false => by_cases h : (grantedSum w.st : Int) + u + c.need ≤ level <;> simp [h]

theorem walkStep_fence (level : Int) (u : Nat) (w : Walk) (c : Candidate) :
    (walkStep level u w c).fence =
      if belowFence w.fence c || admitted level u w c then w.fence else some (w.fence.getD c.prio) := by
  unfold walkStep admitted
  cases belowFence w.fence c with
  | true => rfl
  | false => by_cases h : (grantedSum w.st : Int) + u + c.need ≤ level <;> simp [h]

theorem belowFence_iff (fence : Option Nat) (c : Candidate) : belowFence fence c = true ↔ ∃ f, fence = some f ∧ c.prio < f := by
  cases fence <;> simp [belowFence]

/-! ### The granted sum along the walk -/

/-- A sum along the walk depends on the slots granted before alone. -/
theorem sumAt_congr {table : Fin 24 → Option Record} {G G' : Fin 24 → Bool} {k : Fin 24} {r : Record}
    (h : grantedBefore table G k r = grantedBefore table G' k r) : sumAt table G k r = sumAt table G' k r := by
  unfold sumAt
  rw [h]

/-- A slot not walked before another does not matter there. -/
theorem grantedBefore_update {table : Fin 24 → Option Record} {G : Fin 24 → Bool} {i k : Fin 24} {p r : Record} {b : Bool}
    (hi : table i = some p) (h : walkedBefore i p k r = false) :
    grantedBefore table (Function.update G i b) k r = grantedBefore table G k r := by
  refine List.filter_congr fun j _ => ?_
  by_cases hj : j = i
  · rw [hj, hi]
    simp [h]
  · rw [Function.update_of_ne hj]

theorem mem_grantedBefore {table : Fin 24 → Option Record} {G : Fin 24 → Bool} {j k : Fin 24} {r : Record} :
    j ∈ grantedBefore table G k r ↔ G j = true ∧ ∃ q, table j = some q ∧ walkedBefore j q k r = true := by
  simp [grantedBefore, Option.any_eq_true]

/-- The slots granted, with the decision on one more. -/
theorem length_filter_update {G : Fin 24 → Bool} {i : Fin 24} (hi : G i = false) (b : Bool) :
    ((List.finRange 24).filter (Function.update G i b)).length = ((List.finRange 24).filter G).length + b.toNat := by
  cases b with
  | false =>
    rw [← hi, Function.update_eq_self, hi]
    rfl
  | true =>
    have nodup (p : Fin 24 → Bool) : ((List.finRange 24).filter p).Nodup := (List.nodup_finRange 24).filter p
    have perm : ((List.finRange 24).filter (Function.update G i true)).Perm (i :: (List.finRange 24).filter G) := by
      refine (List.perm_ext_iff_of_nodup (nodup _) (List.nodup_cons.mpr ⟨by simp [hi], nodup G⟩)).mpr fun j => ?_
      by_cases hj : j = i
      · simp [hj]
      · simp [hj]
    exact perm.length_eq

/-- What the walk over the candidates `pre` has left of the table `s`, with the slots `G` granted (R45 to R47). -/
structure Walked (level : Int) (u : Nat) (s : State) (pre : List Candidate) (G : Fin 24 → Bool) (w : Walk) : Prop where
  mem : ∀ k, G k = true → ∃ c ∈ pre, c.slot = k
  admits : ∀ c ∈ pre, ∀ r, recordOf s c.slot = some r →
    (G c.slot = true ↔ (∀ d ∈ pre, c.prio < d.prio → G d.slot = true) ∧
      (sumAt (recordOf s) G c.slot r : Int) + u + c.need ≤ level)
  walked : ∀ c ∈ pre, ∀ r, recordOf s c.slot = some r → slotOf w.st c.slot =
    ⟨(slotOf s c.slot).gen, some (afterWalk c.slot (G c.slot)
      (nextStamp^[(grantedBefore (recordOf s) G c.slot r).length + 1] s.resv.grants) r)⟩
  kept : ∀ k, (∀ c ∈ pre, c.slot ≠ k) → slotOf w.st k = slotOf s k
  fence_some : ∀ f, w.fence = some f → ∃ d ∈ pre, d.prio = f ∧ G d.slot = false
  fence : ∀ d ∈ pre, G d.slot = false → ∃ f, w.fence = some f ∧ d.prio ≤ f
  n : w.n = ((List.finRange 24).filter G).length
  grants : w.st.resv.grants = nextStamp^[w.n] s.resv.grants
  arrivals : w.st.resv.arrivals = s.resv.arrivals

theorem Walked.nil (level : Int) (u : Nat) (s : State) : Walked level u s [] (fun _ => false) ⟨s, none, 0⟩ := by
  constructor
  case mem => exact fun _ h => nomatch h
  case admits => exact fun _ h => nomatch h
  case walked => exact fun _ h => nomatch h
  case kept => exact fun _ _ => rfl
  case fence_some => exact fun _ h => nomatch h
  case fence => exact fun _ h => nomatch h
  case n => rw [List.filter_false]; rfl
  case grants => rfl
  case arrivals => rfl

/-! ### One candidate of the walk -/

/-- A candidate with its record, in admission order behind the candidates `pre`. -/
structure Behind (s : State) (pre : List Candidate) (c : Candidate) (r : Record) : Prop where
  record : recordOf s c.slot = some r
  prio : c.prio = r.prio
  arrival : c.arrival = r.arrival
  need : needOf r = some c.need
  ahead : ∀ d ∈ pre, d.slot ≠ c.slot ∧ ∃ q, recordOf s d.slot = some q ∧ (claimOf q).isSome = true ∧
    walkedBefore d.slot q c.slot r = true ∧ d.prio = q.prio

/-- The draw that the walk has left of a slot is the one that the sum at the next candidate counts. -/
theorem Walked.grantedDraw_slotOf {level : Int} {u : Nat} {s : State} {pre : List Candidate} {G : Fin 24 → Bool} {w : Walk}
    (h : Walked level u s pre G w) {j : Fin 24} {q : Record} (hq : recordOf s j = some q)
    (hG : G j = true → (claimOf q).isSome = true) :
    grantedDraw (slotOf w.st j) = if G j = true then (claimOf q).getD 0 else if q.st = .granted then q.draw else 0 := by
  by_cases hj : ∃ c ∈ pre, c.slot = j
  · obtain ⟨c, hc, rfl⟩ := hj
    rw [h.walked c hc q hq]
    cases hg : G c.slot with
    | true =>
      obtain ⟨d, hd⟩ := Option.isSome_iff_exists.mp (hG hg)
      rw [afterWalk_true, hd]
      show (if (q.grant _ _).st = .granted then (q.grant _ _).draw else 0) = d
      rw [if_pos (Record.grant_st _ _ _)]
      cases hst : q.st with
      | ended e => simp [claimOf, hst] at hd
      | _ => simp [claimOf, hst] at hd; simp [Record.grant, Record.marked, hst, hd]
    | false =>
      show (if (afterWalk _ false _ q).st = .granted then (afterWalk _ false _ q).draw else 0) = _
      by_cases hst : q.st = .pending <;> simp [afterWalk, hst]
  · rw [h.kept j fun c hc e => hj ⟨c, hc, e⟩, grantedDraw_of_recordOf hq]
    rw [if_neg fun hg => hj (h.mem j hg)]

/-- The fence stands above a candidate exactly where one of a higher priority was not granted (R46). -/
theorem Walked.belowFence_iff {level : Int} {u : Nat} {s : State} {pre : List Candidate} {G : Fin 24 → Bool} {w : Walk}
    (h : Walked level u s pre G w) (c : Candidate) :
    belowFence w.fence c = false ↔ ∀ d ∈ pre, c.prio < d.prio → G d.slot = true := by
  rw [← Bool.not_eq_true, Machine.belowFence_iff]
  constructor
  · intro hf d hd hlt
    rw [← Bool.not_eq_false]
    intro hg
    obtain ⟨f, hfence, hle⟩ := h.fence d hd hg
    exact hf ⟨f, hfence, by omega⟩
  · rintro hall ⟨f, hfence, hlt⟩
    obtain ⟨d, hd, hprio, hg⟩ := h.fence_some f hfence
    rw [hall d hd (by omega)] at hg
    cases hg

section
variable {level : Int} {u : Nat} {s : State} {pre : List Candidate} {G : Fin 24 → Bool} {w : Walk} {c : Candidate} {r : Record}
  (h : Walked level u s pre G w) (hc : Behind s pre c r)
include h hc

theorem Walked.not_granted : G c.slot = false := by
  rw [← Bool.not_eq_true]
  intro hg
  obtain ⟨d, hd, he⟩ := h.mem c.slot hg
  exact (hc.ahead d hd).1 he

/-- Every slot granted so far was walked before the next candidate. -/
theorem Walked.grantedBefore_eq : grantedBefore (recordOf s) G c.slot r = (List.finRange 24).filter G := by
  refine List.filter_congr fun j _ => ?_
  cases hg : G j with
  | false => rfl
  | true =>
    obtain ⟨d, hd, rfl⟩ := h.mem j hg
    obtain ⟨-, q, hq, -, before, -⟩ := hc.ahead d hd
    simp [hq, before]

/-- The granted sum that the walk meets at the next candidate. -/
theorem Walked.sumAt_eq : sumAt (recordOf s) G c.slot r = grantedSum w.st := by
  rw [grantedSum_eq, sumAt, h.grantedBefore_eq hc]
  refine congrArg List.sum (List.map_congr_left fun j _ => ?_)
  cases hq : recordOf s j with
  | none =>
    have kept : slotOf w.st j = slotOf s j := h.kept j fun d hd he => by
      obtain ⟨-, q, hq', -⟩ := hc.ahead d hd
      rw [he, hq] at hq'
      cases hq'
    rw [kept]
    exact (grantedDraw_eq_zero (by simp [hq])).symm
  | some q =>
    rw [h.grantedDraw_slotOf hq fun hg => ?_]
    · simp
    · obtain ⟨d, hd, rfl⟩ := h.mem j hg
      obtain ⟨-, q', hq', claim, -⟩ := hc.ahead d hd
      cases hq.symm.trans hq'
      exact claim

theorem Walked.admitted_iff : admitted level u w c = true ↔
    (∀ d ∈ pre, c.prio < d.prio → G d.slot = true) ∧
      (sumAt (recordOf s) G c.slot r : Int) + u + c.need ≤ level := by
  rw [← h.belowFence_iff c, h.sumAt_eq hc, admitted, Bool.and_eq_true, Bool.not_eq_true', decide_eq_true_iff]

/-- The candidate's verdict takes the walk one candidate further. -/
theorem Walked.snoc : Walked level u s (pre ++ [c]) (Function.update G c.slot (admitted level u w c)) (walkStep level u w c) := by
  have ne (d : Candidate) (hd : d ∈ pre) : d.slot ≠ c.slot := (hc.ahead d hd).1
  have G_pre (d : Candidate) (hd : d ∈ pre) (b : Bool) : Function.update G c.slot b d.slot = G d.slot :=
    Function.update_of_ne (ne d hd) b G
  have G_c (b : Bool) : Function.update G c.slot b c.slot = b := Function.update_self c.slot b G
  have before_pre (d : Candidate) (hd : d ∈ pre) (q : Record) (hq : recordOf s d.slot = some q) (b : Bool) :
      grantedBefore (recordOf s) (Function.update G c.slot b) d.slot q = grantedBefore (recordOf s) G d.slot q := by
    obtain ⟨-, q', hq', -, before, -⟩ := hc.ahead d hd
    cases hq.symm.trans hq'
    refine grantedBefore_update hc.record ?_
    rw [walkedBefore_iff] at before
    rw [← Bool.not_eq_true, walkedBefore_iff]
    omega
  have before_c (b : Bool) :
      grantedBefore (recordOf s) (Function.update G c.slot b) c.slot r = grantedBefore (recordOf s) G c.slot r :=
    grantedBefore_update hc.record (by rw [← Bool.not_eq_true, walkedBefore_iff]; omega)
  have slot_c : slotOf w.st c.slot = slotOf s c.slot := h.kept c.slot ne
  have rec_c : recordOf w.st c.slot = some r := by rw [recordOf, slot_c]; exact hc.record
  have verdict (j : Fin 24) := slotOf_verdict rec_c (admitted level u w c) j
  have prio_le (d : Candidate) (hd : d ∈ pre) : c.prio ≤ d.prio := by
    obtain ⟨-, q, -, -, before, hp⟩ := hc.ahead d hd
    rw [walkedBefore_iff] at before
    have := hc.prio
    omega
  have above (n : Nat) (hn : c.prio ≤ n) :
      (∀ e ∈ pre ++ [c], n < e.prio → Function.update G c.slot (admitted level u w c) e.slot = true) ↔
        ∀ e ∈ pre, n < e.prio → G e.slot = true := by
    constructor
    · intro hall e he hlt
      rw [← G_pre e he]
      exact hall e (List.mem_append_left _ he) hlt
    · intro hall e he hlt
      rcases List.mem_append.mp he with he | he
      · rw [G_pre e he]
        exact hall e he hlt
      · cases List.mem_singleton.mp he
        omega
  constructor
  case mem =>
    intro k hk
    by_cases hkc : k = c.slot
    · exact ⟨c, by simp, hkc.symm⟩
    · rw [Function.update_of_ne hkc] at hk
      obtain ⟨d, hd, he⟩ := h.mem k hk
      exact ⟨d, List.mem_append_left _ hd, he⟩
  case admits =>
    intro d hd q hq
    rcases List.mem_append.mp hd with hd | hd
    · rw [G_pre d hd, sumAt_congr (before_pre d hd q hq _), above d.prio (prio_le d hd)]
      exact h.admits d hd q hq
    · cases List.mem_singleton.mp hd
      cases hc.record.symm.trans hq
      rw [G_c, sumAt_congr (before_c _), above c.prio (Nat.le_refl _)]
      exact h.admitted_iff hc
  case walked =>
    intro d hd q hq
    rcases List.mem_append.mp hd with hd | hd
    · rw [walkStep_st, verdict, if_neg (ne d hd), G_pre d hd, before_pre d hd q hq]
      exact h.walked d hd q hq
    · cases List.mem_singleton.mp hd
      cases hc.record.symm.trans hq
      rw [walkStep_st, verdict, if_pos rfl, slot_c, G_c, before_c, h.grantedBefore_eq hc, ← h.n,
        Function.iterate_succ_apply', ← h.grants]
  case kept =>
    intro k hk
    have hkc : k ≠ c.slot := fun e => hk c (by simp) e.symm
    rw [walkStep_st, verdict, if_neg hkc]
    exact h.kept k fun d hd => hk d (List.mem_append_left _ hd)
  case fence_some =>
    intro f hf
    have passed (g : Nat) (hg : w.fence = some g) :
        ∃ d ∈ pre ++ [c], d.prio = g ∧ Function.update G c.slot (admitted level u w c) d.slot = false := by
      obtain ⟨d, hd, hp, hG⟩ := h.fence_some g hg
      exact ⟨d, List.mem_append_left _ hd, hp, (G_pre d hd _).trans hG⟩
    rw [walkStep_fence] at hf
    split at hf
    · exact passed f hf
    · next hset =>
      rw [Bool.or_eq_true, not_or, Bool.not_eq_true, Bool.not_eq_true] at hset
      cases hw : w.fence with
      | none =>
        rw [hw] at hf
        cases hf
        exact ⟨c, by simp, rfl, (G_c _).trans hset.2⟩
      | some g =>
        rw [hw] at hf
        cases hf
        exact passed _ hw
  case fence =>
    intro d hd hG
    rcases List.mem_append.mp hd with hd | hd
    · obtain ⟨f, hf, hle⟩ := h.fence d hd ((G_pre d hd _).symm.trans hG)
      refine ⟨f, ?_, hle⟩
      rw [walkStep_fence, hf]
      split <;> rfl
    · cases List.mem_singleton.mp hd
      rw [G_c] at hG
      rw [walkStep_fence, hG, Bool.or_false]
      split
      · next below =>
        obtain ⟨f, hf, hlt⟩ := (Machine.belowFence_iff _ _).mp below
        exact ⟨f, hf, hlt.le⟩
      · cases hw : w.fence with
        | none => exact ⟨c.prio, rfl, Nat.le_refl _⟩
        | some g =>
          obtain ⟨d, hd, hp, -⟩ := h.fence_some g hw
          exact ⟨g, rfl, hp ▸ prio_le d hd⟩
  case n => rw [walkStep_n, length_filter_update (h.not_granted hc), h.n]
  case grants =>
    rw [walkStep_st, grants_verdict rec_c, walkStep_n, h.grants, ← Function.iterate_add_apply, Nat.add_comm]
  case arrivals => rw [walkStep_st, arrivals_verdict, h.arrivals]

end

/-! ### The stage -/

theorem claimOf_isSome {r : Record} {n : Nat} (h : needOf r = some n) : (claimOf r).isSome = true := by
  rw [needOf_eq] at h
  obtain ⟨d, hd, -⟩ := Option.map_eq_some_iff.mp h
  rw [hd]
  rfl

/-- A record that claims a draw is a candidate. -/
theorem exists_candidate {s : State} {k : Fin 24} {r : Record} (hr : recordOf s k = some r) (h : (claimOf r).isSome = true) :
    ∃ c ∈ candidates s, c.slot = k ∧ c.prio = r.prio := by
  obtain ⟨d, hd⟩ := Option.isSome_iff_exists.mp h
  exact ⟨⟨k, r.prio, r.arrival, if r.st = .granted then d - r.draw else d⟩,
    mem_candidates.mpr (candidateAt_eq_some_iff.mpr ⟨r, hr, rfl, rfl, by rw [needOf_eq, hd]; rfl⟩), rfl, rfl⟩

/-- A candidate that follows others in the walk stands behind them. -/
theorem behind_of_walksBefore {s : State} {pre : List Candidate} {c : Candidate} (hc : candidateAt s c.slot = some c)
    (hpre : ∀ d ∈ pre, candidateAt s d.slot = some d ∧ walksBefore d c = true ∧ d.slot ≠ c.slot) :
    ∃ r, Behind s pre c r := by
  obtain ⟨r, hr, hp, ha, hn⟩ := candidateAt_eq_some_iff.mp hc
  refine ⟨r, hr, hp, ha, hn, fun d hd => ?_⟩
  obtain ⟨hd, before, hne⟩ := hpre d hd
  obtain ⟨q, hq, hdp, hda, hdn⟩ := candidateAt_eq_some_iff.mp hd
  refine ⟨hne, q, hq, ?_, ?_, hdp⟩
  · exact claimOf_isSome hdn
  · rw [walksBefore_iff] at before
    rw [walkedBefore_iff]
    omega

/-- The walk over further candidates in admission order. -/
theorem walked_foldl {level : Int} {u : Nat} {s : State} (cs : List Candidate) {pre : List Candidate} {G : Fin 24 → Bool} {w : Walk}
    (h : Walked level u s pre G w) (hcs : ∀ c ∈ pre ++ cs, candidateAt s c.slot = some c)
    (hord : (pre ++ cs).Pairwise fun a b => walksBefore a b = true ∧ a.slot ≠ b.slot) :
    ∃ G', Walked level u s (pre ++ cs) G' (cs.foldl (walkStep level u) w) := by
  induction cs generalizing pre G w with
  | nil => exact ⟨G, by rw [List.append_nil]; exact h⟩
  | cons c cs ih =>
    obtain ⟨-, -, hcross⟩ := List.pairwise_append.mp hord
    obtain ⟨r, hc⟩ := behind_of_walksBefore (pre := pre) (hcs c (by simp)) fun d hd =>
      ⟨hcs d (List.mem_append_left _ hd), hcross d hd c List.mem_cons_self⟩
    rw [List.append_cons] at hcs hord ⊢
    exact ih (h.snoc hc) hcs hord

/-- What the admission stage leaves: the candidates granted are those of `admitsExactly`, and every record ends as its verdict leaves
it, with grant stamps in admission order (R45 to R47). -/
theorem admitStage_spec (level : Int) (u : Nat) (s : State) :
    ∃ granted : Fin 24 → Bool, admitsExactly (recordOf s) level u granted ∧
      (∀ k, slotOf (admitStage level u s).st k = ⟨(slotOf s k).gen, (recordOf s k).map fun r => afterWalk k (granted k)
        (nextStamp^[(grantedBefore (recordOf s) granted k r).length + 1] s.resv.grants) r⟩) ∧
      (admitStage level u s).n = ((List.finRange 24).filter granted).length ∧
      (admitStage level u s).st.resv.grants = nextStamp^[(admitStage level u s).n] s.resv.grants ∧
      (admitStage level u s).st.resv.arrivals = s.resv.arrivals := by
  obtain ⟨G, h⟩ := walked_foldl (candidates s) (.nil level u s) (fun c hc => candidateAt_of_mem_candidates hc)
    (candidates_walked s)
  rw [List.nil_append] at h
  refine ⟨G, fun k => ?_, fun k => ?_, h.n, h.grants, h.arrivals⟩
  · constructor
    · intro hk
      obtain ⟨c, hc, rfl⟩ := h.mem k hk
      obtain ⟨r, hr, hp, -, hn⟩ := candidateAt_eq_some_iff.mp (mem_candidates.mp hc)
      obtain ⟨hfence, hfits⟩ := (h.admits c hc r hr).mp hk
      rw [needOf_eq] at hn
      obtain ⟨d, hd, hneed⟩ := Option.map_eq_some_iff.mp hn
      refine ⟨r, hr, d, hd, fun j q hq hclaim hlt => ?_, hneed ▸ hfits⟩
      obtain ⟨e, he, rfl, hep⟩ := exists_candidate hq hclaim
      exact hfence e he (by omega)
    · rintro ⟨r, hr, d, hd, hfence, hfits⟩
      obtain ⟨c, hc, rfl, hp⟩ := exists_candidate hr (by rw [hd]; rfl)
      obtain ⟨r', hr', -, -, hn⟩ := candidateAt_eq_some_iff.mp (mem_candidates.mp hc)
      cases hr.symm.trans hr'
      rw [needOf_eq, hd, Option.map_some, Option.some.injEq] at hn
      refine (h.admits c hc r hr).mpr ⟨fun e he hlt => ?_, hn ▸ hfits⟩
      obtain ⟨q, hq, hep, -, hen⟩ := candidateAt_eq_some_iff.mp (mem_candidates.mp he)
      exact hfence e.slot q hq (claimOf_isSome hen) (by omega)
  · by_cases hk : ∃ c ∈ candidates s, c.slot = k
    · obtain ⟨c, hc, rfl⟩ := hk
      obtain ⟨r, hr, -⟩ := candidateAt_eq_some_iff.mp (mem_candidates.mp hc)
      rw [hr]
      exact h.walked c hc r hr
    · refine (h.kept k fun c hc he => hk ⟨c, hc, he⟩).trans ?_
      cases hr : recordOf s k with
      | none =>
        rw [Option.map_none, ← hr]
        rfl
      | some r =>
        have hG : G k = false := Bool.eq_false_iff.mpr fun hg => hk (h.mem k hg)
        have hst : r.st ≠ .pending := fun hst => by
          obtain ⟨c, hc, he, -⟩ := exists_candidate hr (by simp [claimOf, hst])
          exact hk ⟨c, hc, he⟩
        rw [Option.map_some, hG, afterWalk, if_neg Bool.false_ne_true, if_neg hst, ← hr]
        rfl

end Sys2Proof.Machine
end

section
/-! What a pass leaves of the reservation table (1.4, 1.5, 2.4 to 2.6). -/

namespace Sys2Proof.Machine

/-! ### The equalizer stage (R18, R40, R65, R66) -/

/-- The equalizer stage reads no port. -/
theorem equalizerStage_port (u : Nat) (s : State) (P : PerPort Port) :
    equalizerStage u { s with port := P } = { equalizerStage u s with port := P } := by
  have hrec : recordOf { s with port := P } 0 = recordOf s 0 := rfl
  have hdir : startDir { s with port := P } u = startDir s u := rfl
  have hstop (d : Dir) : stopsTransfer { s with port := P } u d = stopsTransfer s u d := rfl
  unfold equalizerStage
  rw [hrec, hdir]
  cases recordOf s 0 with
  | none => cases startDir s u <;> rfl
  | some r =>
    dsimp only
    rw [hstop]
    cases stopsTransfer s u (r.dir.getD .aToB) <;> rfl

theorem equalizerStage_droopStep (s : State) :
    equalizerStage s.load.U (droopStep s) = { equalized s with port := (droopStep s).port } := by
  rw [equalized_eq, ← equalizerStage_port, ← droopStep_frame]

theorem slotOf_equalized {s : State} {k : Fin 24} (h : k ≠ 0) : slotOf (equalized s) k = slotOf s k := by
  rw [equalized_eq, equalizerStage]
  split
  · split
    · rw [startEqualizer, slotOf_putRecord, if_neg h]
      rfl
    · rfl
  · split
    · rw [slotOf_freeSlot, if_neg h]
    · rfl

/-- The equalizer stage keeps the record of a slot, or frees slot 0. -/
theorem recordOf_equalized {s : State} {k : Fin 24} {r : Record} (hr : recordOf s k = some r) :
    recordOf (equalized s) k = some r ∨ recordOf (equalized s) k = none := by
  by_cases hk : k = 0
  · subst hk
    rw [equalized_eq, equalizerStage, hr]
    dsimp only
    split
    · exact .inr (by rw [recordOf_freeSlot, if_pos rfl])
    · exact .inl hr
  · exact .inl (by rw [recordOf, slotOf_equalized hk]; exact hr)

theorem grants_equalized (s : State) : (equalized s).resv.grants = s.resv.grants := by
  rw [equalized_eq, equalizerStage]
  split
  · split <;> rfl
  · split <;> rfl

theorem cond_equalized (s : State) : (equalized s).cond = s.cond := by
  rw [equalized_eq, cond_equalizerStage]

/-! ### The levels of a pass (R39) -/

theorem pub_T (s : State) : (budgetPass s).budget.pub.T = (passFigures s).T := by rw [pub_budgetPass]; rfl

theorem pub_U (s : State) : (budgetPass s).budget.pub.U = s.load.U := by rw [pub_budgetPass]; rfl

theorem pub_M (s : State) : (budgetPass s).budget.pub.M = s.lim.margin := by
  have kept : (passSplit s).st.lim = s.lim := by rw [eq_of_sameButTable_droopStep (sameButTable_passSplit s)]
  rw [pub_budgetPass, ← kept]
  rfl

theorem pub_H (s : State) : (budgetPass s).budget.pub.H = s.lim.admitHyst := by
  have kept : (passSplit s).st.lim = s.lim := by rw [eq_of_sameButTable_droopStep (sameButTable_passSplit s)]
  rw [pub_budgetPass, ← kept]
  rfl

/-- The shedding level T − M of a pass as it publishes it. -/
theorem shedLevel_eq (s : State) : shedLevel (passFigures s) s.lim =
    ((budgetPass s).budget.pub.T : Int) - (budgetPass s).budget.pub.M := by
  rw [pub_T, pub_M]
  rfl

/-- The admission level T − M − H of a pass as it publishes it. -/
theorem admitLevel_eq (s : State) : admitLevel (passFigures s) s.lim =
    ((budgetPass s).budget.pub.T : Int) - (budgetPass s).budget.pub.M - (budgetPass s).budget.pub.H := by
  rw [pub_T, pub_M, pub_H]
  rfl

/-! ### Shedding and admission in a pass -/

/-- The table after the shedding stage of a pass. -/
def passTable (s : State) (k : Fin 24) : Option Record :=
  shedRecord (equalized s) (shedLevel (passFigures s) s.lim) s.load.U k

/-- The slots shed in a pass. -/
def passShedSlots (s : State) : List (Fin 24) := shedSlots (equalized s) (shedLevel (passFigures s) s.lim) s.load.U

/-- The shedding stage of a pass, on the table the equalizer stage leaves (R41 to R43). -/
theorem passShed_spec (s : State) [Decidable (critical (equalized s) (passShedSlots s))] :
    (∀ k, slotOf (passShed s).st k = ⟨(slotOf (equalized s) k).gen, passTable s k⟩) ∧
    (passShed s).st.resv.grants = s.resv.grants ∧ (passShed s).st.resv.arrivals = (equalized s).resv.arrivals ∧
    (passShed s).n = (passShedSlots s).length ∧
    (passShed s).st.cond.cnt = { s.cond.cnt with
      recordsShed := max s.cond.cnt.recordsShed (min 255 (s.cond.cnt.recordsShed + (passShedSlots s).length)) } ∧
    (passShed s).st.cond.latched = s.cond.latched ||| (if passShedSlots s = [] then 0 else 0x1#26) |||
      (if critical (equalized s) (passShedSlots s) then 0x2#26 else 0) := by
  have stage : passShed s = shedStage (shedLevel (passFigures s) s.lim) s.load.U { equalized s with port := (droopStep s).port } :=
    congrArg (shedStage _ _) (equalizerStage_droopStep s)
  obtain ⟨slots, resv, n, cnt, latched⟩ := @shedStage_spec (shedLevel (passFigures s) s.lim) s.load.U
    { equalized s with port := (droopStep s).port }
    (inferInstanceAs (Decidable (critical (equalized s) (passShedSlots s))))
  rw [← stage] at slots resv n cnt latched
  refine ⟨slots, ?_, ?_, n, ?_, ?_⟩
  · rw [resv]
    exact grants_equalized s
  · rw [resv]
  · rw [cnt, ← cond_equalized s]
    rfl
  · rw [latched, ← cond_equalized s]
    rfl

theorem recordOf_passShed (s : State) (k : Fin 24) : recordOf (passShed s).st k = passTable s k := by
  classical
  rw [recordOf, (passShed_spec s).1]

/-- The record of a slot after the admission stage, granted or not, with the grants before it. -/
def walkedRecord (s : State) (granted : Fin 24 → Bool) (k : Fin 24) (r : Record) : Record :=
  afterWalk k (granted k) (nextStamp^[(grantedBefore (passTable s) granted k r).length + 1] s.resv.grants) r

/-- The admission stage of a pass (R45 to R47). -/
theorem passWalk_spec (s : State) :
    ∃ granted : Fin 24 → Bool, admitsExactly (passTable s) (admitLevel (passFigures s) s.lim) s.load.U granted ∧
      (∀ k, slotOf (passWalk s).st k = ⟨(slotOf (equalized s) k).gen, (passTable s k).map (walkedRecord s granted k)⟩) ∧
      (passWalk s).n = ((List.finRange 24).filter granted).length ∧
      (passWalk s).st.resv.grants = nextStamp^[(passWalk s).n] s.resv.grants ∧
      (passWalk s).st.resv.arrivals = (equalized s).resv.arrivals := by
  classical
  obtain ⟨slots, grants, arrivals, -⟩ := passShed_spec s
  have table : recordOf (passShed s).st = passTable s := funext (recordOf_passShed s)
  obtain ⟨granted, hadmits, hslots, hn, hgrants, harrivals⟩ :=
    admitStage_spec (admitLevel (passFigures s) s.lim) s.load.U (passShed s).st
  rw [table, grants] at *
  refine ⟨granted, hadmits, fun k => ?_, hn, hgrants, harrivals.trans arrivals⟩
  have hk := hslots k
  rw [slots k] at hk
  exact hk

/-! ### The split stage (R55) -/

/-- Whether the split stage stops the equalizing record that the walk has left: its source cell cannot carry it (R55). -/
def stopped (s : State) (r : Record) : Prop :=
  r.st = .granted ∧ sourceCap (passFigures s) (r.dir.getD .aToB) < r.draw

theorem passSplit_of_stopped {s : State} {r : Record} (hr : recordOf (passWalk s).st 0 = some r) (hs : stopped s r) :
    (passSplit s).st = freeSlot 0 (passWalk s).st := by
  obtain ⟨hst, hcap⟩ := hs
  have hdraw : equalizerDraw (passWalk s).st = r.draw := grantedDraw_of_granted hr hst
  rcases splitStage_cases (passFigures s) s.load.U (passWalk s).st with
    ⟨hzero, -⟩ | ⟨q, hq, -, -, -, ⟨-, hsplit⟩ | ⟨hle, -⟩⟩
  · omega
  · exact congrArg SplitOut.st hsplit
  · cases hr.symm.trans hq
    omega

theorem passSplit_of_kept {s : State} (h : ∀ r, recordOf (passWalk s).st 0 = some r → ¬stopped s r) :
    (passSplit s).st = (passWalk s).st := by
  rcases splitStage_cases (passFigures s) s.load.U (passWalk s).st with
    ⟨-, hsplit⟩ | ⟨r, hr, hst, hdraw, -, ⟨hcap, -⟩ | ⟨-, hsplit⟩⟩
  · refine (congrArg SplitOut.st hsplit).trans ?_
    unfold plainSplit
    split <;> rfl
  · exact absurd ⟨hst, hdraw ▸ hcap⟩ (h r hr)
  · exact (congrArg SplitOut.st hsplit).trans (transferSplit_st ..)

theorem slotOf_budgetPass (s : State) (k : Fin 24) : slotOf (budgetPass s) k = slotOf (passSplit s).st k := by
  rw [budgetPass_eq]
  rfl

/-- A record after a pass is one that the walk left. -/
theorem recordOf_budgetPass {s : State} {k : Fin 24} {r : Record} (h : recordOf (budgetPass s) k = some r) :
    recordOf (passWalk s).st k = some r := by
  rw [recordOf, slotOf_budgetPass] at h
  rcases splitStage_st (passFigures s) s.load.U (passWalk s).st with hs | hs
  · rw [passSplit, hs] at h
    exact h
  · rw [passSplit, hs, slotOf_freeSlot] at h
    split at h
    · cases h
    · exact h

/-- A record after a pass is the one the walk leaves of a record of the table after shedding. -/
theorem exists_of_recordOf_budgetPass {s : State} {granted : Fin 24 → Bool}
    (slots : ∀ k, slotOf (passWalk s).st k = ⟨(slotOf (equalized s) k).gen, (passTable s k).map (walkedRecord s granted k)⟩)
    {k : Fin 24} {r : Record} (h : recordOf (budgetPass s) k = some r) :
    ∃ q, passTable s k = some q ∧ r = walkedRecord s granted k q := by
  have hw := recordOf_budgetPass h
  rw [recordOf, slots, Option.map_eq_some_iff] at hw
  obtain ⟨q, hq, hr⟩ := hw
  exact ⟨q, hq, hr.symm⟩

theorem afterWalk_st (k : Fin 24) (b : Bool) (stamp : Nat) (r : Record) :
    (afterWalk k b stamp r).st = if b then .granted else if r.st = .pending then .waiting .noRoom else r.st := by
  unfold afterWalk
  cases b
  · by_cases h : r.st = .pending <;> simp [h]
  · by_cases h : r.st = .granted <;> simp [h]

theorem afterWalk_prio (k : Fin 24) (b : Bool) (stamp : Nat) (r : Record) : (afterWalk k b stamp r).prio = r.prio := by
  unfold afterWalk
  split
  · split <;> rfl
  · split <;> rfl

/-! ### The granted sum after the walk (R44, R47) -/

/-- Without a grant the walk leaves the granted sum at or below what it met; with one it leaves it within its level. -/
theorem grantedSum_walk {level : Int} {u : Nat} (bound : Nat) (cs : List Candidate) (w : Walk)
    (hdistinct : cs.Pairwise fun a b => a.slot ≠ b.slot) (hcs : ∀ c ∈ cs, candidateAt w.st c.slot = some c)
    (h : (w.n = 0 → grantedSum w.st ≤ bound) ∧ (0 < w.n → (grantedSum w.st : Int) + u ≤ level)) :
    ((cs.foldl (walkStep level u) w).n = 0 → grantedSum (cs.foldl (walkStep level u) w).st ≤ bound) ∧
      (0 < (cs.foldl (walkStep level u) w).n → (grantedSum (cs.foldl (walkStep level u) w).st : Int) + u ≤ level) := by
  induction cs generalizing w with
  | nil => exact h
  | cons c cs ih =>
    obtain ⟨hc, hcs⟩ := List.forall_mem_cons.mp hcs
    obtain ⟨hne, hdistinct⟩ := List.pairwise_cons.mp hdistinct
    refine ih _ hdistinct (fun d hd => ?_) ?_
    · rw [candidateAt_congr (recordOf_walkStep_of_ne (hne d hd).symm)]
      exact hcs d hd
    · rw [walkStep_n, walkStep_st]
      cases hb : admitted level u w c with
      | false =>
        have hle := grantedSum_le_of_grantsFall (grantsFall_noRoomVerdict c.slot w.st)
        simp only [Bool.toNat_false, Nat.add_zero, Bool.false_eq_true, if_false]
        omega
      | true =>
        obtain ⟨-, r, hr, hn⟩ := candidateAt_eq_some hc
        have hsum := grantedSum_grantVerdict_le hr hn
        have hfits : (grantedSum w.st : Int) + u + c.need ≤ level := by
          simp only [admitted, Bool.and_eq_true, decide_eq_true_eq] at hb
          exact hb.2
        simp only [Bool.toNat_true, if_true]
        omega

/-- The granted sum after the walk of a pass. -/
theorem grantedSum_passWalk (s : State) :
    (grantedSum (passWalk s).st = 0 ∨ (grantedSum (passWalk s).st : Int) + s.load.U ≤ shedLevel (passFigures s) s.lim) ∧
    (0 < (passWalk s).n → (grantedSum (passWalk s).st : Int) + s.load.U ≤ admitLevel (passFigures s) s.lim) := by
  have shed : (grantedSum (passShed s).st : Int) + s.load.U ≤ shedLevel (passFigures s) s.lim ∨ grantedSum (passShed s).st = 0 := by
    have same : grantedSum (passShed s).st = _ := grantedSum_congr (congrArg Table.slots (shedStage_resv _ _ _))
    rw [same]
    exact grantedSum_shedLoop _ _ 24 _ (Finset.card_le_univ _)
  obtain ⟨none, some⟩ := grantedSum_walk (level := admitLevel (passFigures s) s.lim) (u := s.load.U) (grantedSum (passShed s).st)
    (candidates (passShed s).st) ⟨(passShed s).st, none, 0⟩ (candidates_distinct _)
    (fun _ hc => candidateAt_of_mem_candidates hc) ⟨fun _ => Nat.le_refl _, fun h => absurd h (Nat.lt_irrefl 0)⟩
  have levels : admitLevel (passFigures s) s.lim ≤ shedLevel (passFigures s) s.lim := by
    unfold admitLevel shedLevel
    omega
  refine ⟨?_, some⟩
  by_cases hn : (passWalk s).n = 0
  · have hle : grantedSum (passWalk s).st ≤ grantedSum (passShed s).st := none hn
    omega
  · have hle : (grantedSum (passWalk s).st : Int) + s.load.U ≤ _ := some (Nat.pos_of_ne_zero hn)
    omega

theorem iterate_nextStamp {g : Nat} (hg : g ≤ 65535) (n : Nat) : nextStamp^[n] g = min 65535 (g + n) := by
  induction n with
  | zero => exact (Nat.min_eq_right hg).symm
  | succ n ih =>
    rw [Function.iterate_succ_apply', ih, nextStamp, Config.stampMax]
    split <;> omega

end Sys2Proof.Machine
end

section
/-! The three statements on the table after a pass: what each record becomes, the fence, and shed order (2.5, 2.6). -/

namespace Sys2Proof.Machine

/-! ### The whole table -/

theorem resv_budgetPass (s : State) : (budgetPass s).resv = (passSplit s).st.resv := by
  rw [budgetPass_eq]
  rfl

theorem arrivals_budgetPass (s : State) : (budgetPass s).resv.arrivals = (passWalk s).st.resv.arrivals := by
  rw [resv_budgetPass, passSplit]
  rcases splitStage_st (passFigures s) s.load.U (passWalk s).st with h | h <;> rw [h]
  rfl

theorem grants_budgetPass (s : State) : (budgetPass s).resv.grants = (passWalk s).st.resv.grants := by
  rw [resv_budgetPass, passSplit]
  rcases splitStage_st (passFigures s) s.load.U (passWalk s).st with h | h <;> rw [h]
  rfl

theorem cond_budgetPass (s : State) : (budgetPass s).cond = (passShed s).st.cond := by
  rw [budgetPass_eq]
  exact cond_passSplit s

/-- The split stage only frees, so that the granted sum does not rise after the walk (R55). -/
theorem grantedSum_budgetPass_le (s : State) : grantedSum (budgetPass s) ≤ grantedSum (passWalk s).st := by
  have same : grantedSum (budgetPass s) = grantedSum (passSplit s).st := grantedSum_congr (by rw [budgetPass_frame])
  rw [same]
  exact grantedSum_le_of_grantsFall (grantsFall_splitStage _ _ _)

/-- A slot after a pass, by the record that the walk leaves in it. -/
theorem slotOf_budgetPass_of_record {s : State} {k : Fin 24} {r : Record} (hr : recordOf (passWalk s).st k = some r) :
    slotOf (budgetPass s) k =
      if k = 0 ∧ r.st = .granted ∧ sourceCap (passFigures s) (r.dir.getD .aToB) < r.draw then
        ⟨(slotOf (passWalk s).st k).gen + 1, none⟩
      else slotOf (passWalk s).st k := by
  rw [slotOf_budgetPass]
  by_cases hk : k = 0
  · subst hk
    by_cases hs : stopped s r
    · rw [passSplit_of_stopped hr hs, slotOf_freeSlot, if_pos rfl]
      exact (if_pos ⟨rfl, hs⟩).symm
    · rw [passSplit_of_kept fun q hq => by cases hr.symm.trans hq; exact hs]
      exact (if_neg fun h => hs h.2).symm
  · rw [if_neg fun h => hk h.1]
    rcases splitStage_st (passFigures s) s.load.U (passWalk s).st with h | h
    · rw [passSplit, h]
    · rw [passSplit, h, slotOf_freeSlot, if_neg hk]

theorem slotOf_budgetPass_of_free {s : State} {k : Fin 24} (hr : recordOf (passWalk s).st k = none) :
    slotOf (budgetPass s) k = slotOf (passWalk s).st k := by
  rw [slotOf_budgetPass]
  by_cases hk : k = 0
  · rw [passSplit_of_kept fun q hq => by rw [← hk, hr] at hq; cases hq]
  · rcases splitStage_st (passFigures s) s.load.U (passWalk s).st with h | h
    · rw [passSplit, h]
    · rw [passSplit, h, slotOf_freeSlot, if_neg hk]

/-- The cell that a transfer draws on (R55). -/
theorem sourceCap_eq (c : Capability) (d : Option Dir) :
    sourceCap c (d.getD .aToB) = if d = some .bToA then c.dBn else c.dA := by
  rcases getD_aToB_cases d with ⟨hd, hg⟩ | ⟨hd, hg⟩ <;> rw [hg]
  · rw [if_pos hd, sourceCap]
  · rw [if_neg hd, sourceCap]

theorem afterWalk_st_ne_pending (k : Fin 24) (b : Bool) (stamp : Nat) (r : Record) : (afterWalk k b stamp r).st ≠ .pending := by
  rw [afterWalk_st]
  cases b with
  | true => simp
  | false => by_cases h : r.st = .pending <;> simp [h]

theorem passTable_eq_none {s : State} {k : Fin 24} (h : passTable s k = none) : recordOf (equalized s) k = none :=
  Option.map_eq_none_iff.mp h

/-- Settles O29, stage by stage: the shedding loop by `Sheds`, the walk by `Walked`, and the split stage that only frees slot 0. -/
theorem passLeavesNoRecordPending : Obligations.PassLeavesNoRecordPending := by
  intro s row hdue hgrants
  refine ⟨budgetPass s, exec_of_passDue hdue, ?_⟩
  intro e p shed table source
  obtain ⟨granted, hadmits, slots, n, grants, arrivals⟩ := passWalk_spec s
  have hshed : shed = passShedSlots s := by
    show shedSlots e ((p.T : Int) - p.M) p.U = _
    rw [passShedSlots, shedLevel_eq, ← pub_U]
  have htable : table = passTable s := by
    funext k
    rw [passTable, shedLevel_eq, ← pub_U]
  have hgranted : p.granted = (passWalk s).n := by
    show (budgetPass s).budget.pub.granted = _
    rw [pub_budgetPass, publishedOf]
  have hsource (r : Record) : sourceCap (passFigures s) (r.dir.getD .aToB) = source r := by
    show _ = if r.dir = some .bToA then (budgetPass s).budget.pub.dBn else (budgetPass s).budget.pub.dA
    rw [sourceCap_eq, pub_budgetPass, publishedOf]
  obtain ⟨-, -, -, hn, cnt, latched⟩ := @passShed_spec s (inferInstanceAs (Decidable (∃ k ∈ passShedSlots s,
    (recordOf (equalized s) k).any (fun r => r.prio == 7) = true)))
  obtain ⟨zero_or, within⟩ := grantedSum_passWalk s
  have hle := grantedSum_budgetPass_le s
  rw [shedLevel_eq, ← pub_U] at zero_or
  rw [admitLevel_eq, ← pub_U] at within hadmits
  refine ⟨fun k r hr hst => ?_, ?_, ?_, ⟨granted, ?_, ?_, fun k => ⟨fun hk => ?_, fun r hk => ?_⟩⟩, ?_, ?_, ?_, ?_, ?_⟩
  · obtain ⟨q, -, rfl⟩ := exists_of_recordOf_budgetPass slots hr
    exact afterWalk_st_ne_pending _ _ _ _ hst
  · show grantedSum (budgetPass s) = 0 ∨ grantedSum (budgetPass s) + (budgetPass s).budget.pub.M +
      (budgetPass s).budget.pub.U ≤ (budgetPass s).budget.pub.T
    omega
  · rw [hgranted]
    intro hpos
    have := within hpos
    show grantedSum (budgetPass s) + (budgetPass s).budget.pub.U + (budgetPass s).budget.pub.M +
      (budgetPass s).budget.pub.H ≤ (budgetPass s).budget.pub.T
    omega
  · rw [htable]
    exact hadmits
  · rw [hgranted, n]
  · rw [htable] at hk
    have free : recordOf (passWalk s).st k = none := by rw [recordOf, slots, hk]; rfl
    rw [slotOf_budgetPass_of_free free, slots, hk, Option.map_none, ← passTable_eq_none hk]
    rfl
  · intro r'
    rw [htable] at hk
    have hr' : walkedRecord s granted k r = r' := by
      show afterWalk _ _ _ _ = afterWalk k (granted k) (min 65535 (s.resv.grants + (grantedBefore table granted k r).length + 1)) r
      rw [htable, iterate_nextStamp hgrants, Nat.add_assoc]
    have hw : slotOf (passWalk s).st k = ⟨(slotOf e k).gen, some r'⟩ := by
      rw [slots, hk, Option.map_some, hr']
    rw [slotOf_budgetPass_of_record (congrArg Slot.record hw), hw, hsource]
  · rw [arrivals_budgetPass, arrivals]
  · rw [grants_budgetPass, grants, iterate_nextStamp hgrants, hgranted]
  · rw [hshed, ← hn]
    show (budgetPass s).budget.pub.shed = _
    rw [pub_budgetPass, publishedOf]
  · rw [hshed, cond_budgetPass, cnt]
  · rw [hshed, cond_budgetPass, latched]
    rfl

/-! ### The fence and shed order -/

/-- A record of the table after the equalizer stage, before and after shedding. -/
theorem passTable_cases {s : State} {k : Fin 24} {r : Record} (hr : recordOf (equalized s) k = some r) :
    (isShed (equalized s) (shedLevel (passFigures s) s.lim) s.load.U k = true ∧ passTable s k = some (afterShed k r)) ∨
      (isShed (equalized s) (shedLevel (passFigures s) s.lim) s.load.U k = false ∧ passTable s k = some r) := by
  unfold passTable shedRecord
  rw [hr]
  cases isShed (equalized s) (shedLevel (passFigures s) s.lim) s.load.U k <;> simp

/-- Only a GRANTED record is shed (R42). -/
theorem granted_of_isShed {s : State} {level : Int} {u : Nat} {k : Fin 24} {r : Record} (hr : recordOf s k = some r)
    (h : isShed s level u k = true) : r.st = .granted ∧ 0 < sumFrom s k r ∧ level < sumFrom s k r + u := by
  rw [isShed_of_record hr] at h
  exact of_decide_eq_true h

/-- A record that a pass leaves in a slot which held one before it: the equalizer stage has not freed the slot. -/
theorem equalized_of_left {s : State} {granted : Fin 24 → Bool}
    (slots : ∀ k, slotOf (passWalk s).st k = ⟨(slotOf (equalized s) k).gen, (passTable s k).map (walkedRecord s granted k)⟩)
    {k : Fin 24} {r r' : Record} (hr : recordOf s k = some r) (hr' : recordOf (budgetPass s) k = some r') :
    recordOf (equalized s) k = some r := by
  obtain ⟨q, hq, -⟩ := exists_of_recordOf_budgetPass slots hr'
  rcases recordOf_equalized hr with h | h
  · exact h
  · rw [passTable, shedRecord, h] at hq
    cases hq

/-- Settles O30: a record left WAITING was a candidate not granted, and the walk grants none below it. -/
theorem passGrantsNothingBelowAWaitingRecord : Obligations.PassGrantsNothingBelowAWaitingRecord := by
  intro s t row j k r r' q c hdue ht hr hst hr' hst' hq hwait
  cases (exec_of_passDue hdue).symm.trans ht
  obtain ⟨granted, hadmits, slots, -⟩ := passWalk_spec s
  have he := equalized_of_left slots hr hr'
  have htable : passTable s j = some r := by
    rcases passTable_cases he with ⟨hshed, -⟩ | ⟨-, h⟩
    · exact absurd (granted_of_isShed he hshed).1 hst
    · exact h
  obtain ⟨r₀, hr₀, rfl⟩ := exists_of_recordOf_budgetPass slots hr'
  cases htable.symm.trans hr₀
  obtain ⟨q₀, hq₀, rfl⟩ := exists_of_recordOf_budgetPass slots hq
  rw [walkedRecord, afterWalk_st] at hst' hwait
  rw [walkedRecord, walkedRecord, afterWalk_prio, afterWalk_prio]
  have hj : granted j = true := by
    by_contra hg
    rw [if_neg hg] at hst'
    split at hst'
    · cases hst'
    · exact hst hst'
  have hk : granted k = false := by
    by_contra hg
    rw [if_pos (Bool.eq_true_of_not_eq_false hg)] at hwait
    cases hwait
  have claims : (claimOf q₀).isSome = true := by
    rw [hk, if_neg Bool.false_ne_true] at hwait
    unfold claimOf
    split at hwait
    · next h => rw [h]; rfl
    · rw [hwait]; rfl
  obtain ⟨p, hp, d, -, hfence, -⟩ := (hadmits j).mp hj
  cases htable.symm.trans hp
  by_contra hlt
  rw [hfence k q₀ hq₀ claims (Nat.lt_of_not_le hlt)] at hk
  cases hk

/-- A record that stands before one to be shed is shed as well (R42). -/
theorem isShed_of_standsBefore {s : State} {level : Int} {u : Nat} {j k : Fin 24} {r q : Record} (hr : recordOf s j = some r)
    (hq : recordOf s k = some q) (hst : q.st = .granted) (hshed : isShed s level u j = true)
    (h : standsBefore k q j r = true) : isShed s level u k = true := by
  obtain ⟨-, hpos, hlevel⟩ := granted_of_isShed hr hshed
  have hle := sumFrom_le_of_standsBefore s h
  rw [isShed_of_record hq, decide_eq_true_iff]
  exact ⟨hst, by omega, by omega⟩

/-- A grant, or an increase taken up, gives the record its grant stamp (R15). -/
theorem grantStamp_afterWalk (k : Fin 24) (stamp : Nat) (r : Record) : (afterWalk k true stamp r).grantStamp = some stamp := by
  unfold afterWalk
  rw [if_pos rfl]
  split <;> rfl

/-- Settles O31: what stands before a shed record is shed too, and a record granted again has a stamp above the counter's old value. -/
theorem passShedsInShedOrder : Obligations.PassShedsInShedOrder := by
  intro s t row j k r q r' q' hok hgrants hdue ht hr hst hr' hst' hq hqst hq' hqst' hstamp
  cases (exec_of_passDue hdue).symm.trans ht
  obtain ⟨granted, -, slots, -⟩ := passWalk_spec s
  obtain ⟨records, -, -⟩ := (tableOk_iff s).mp hok
  have hrFits := recordOk_iff.mp (records j r hr)
  have hqFits := recordOk_iff.mp (records k q hq)
  have her := equalized_of_left slots hr hr'
  have heq := equalized_of_left slots hq hq'
  obtain ⟨r₀, hr₀, rfl⟩ := exists_of_recordOf_budgetPass slots hr'
  obtain ⟨q₀, hq₀, rfl⟩ := exists_of_recordOf_budgetPass slots hq'
  have shed : isShed (equalized s) (shedLevel (passFigures s) s.lim) s.load.U j = true := by
    rcases passTable_cases her with ⟨h, -⟩ | ⟨-, h⟩
    · exact h
    · cases h.symm.trans hr₀
      rw [walkedRecord, afterWalk_st, hst] at hst'
      cases hg : granted j <;> simp [hg] at hst'
  have kept : isShed (equalized s) (shedLevel (passFigures s) s.lim) s.load.U k = false := by
    rcases passTable_cases heq with ⟨-, h⟩ | ⟨h, -⟩
    · cases h.symm.trans hq₀
      have hg : granted k = true := by
        by_contra hg
        rw [walkedRecord, afterWalk_st, if_neg hg] at hqst'
        cases hqst'
      rw [walkedRecord, hg, grantStamp_afterWalk, iterate_nextStamp hgrants.le] at hstamp
      have hle := (hqFits.stamp _ hstamp.symm).2
      omega
    · exact h
  have after : standsBefore k q j r = false := by
    rw [← Bool.not_eq_true]
    intro h
    rw [isShed_of_standsBefore her heq hqst shed h] at kept
    cases kept
  have hne : k ≠ j := by
    rintro rfl
    rw [shed] at kept
    cases kept
  have before := standsBefore_of_ne hne after
  rw [standsBefore_iff] at before
  obtain ⟨m, hm⟩ : ∃ m, r.grantStamp = some m := Option.isSome_iff_exists.mp (hrFits.stamped.resolve_right (not_not_intro hst))
  obtain ⟨n, hn⟩ : ∃ n, q.grantStamp = some n := Option.isSome_iff_exists.mp (hqFits.stamped.resolve_right (not_not_intro hqst))
  rw [hm, hn] at before ⊢
  simpa using before

end Sys2Proof.Machine
end

section
/-! The net power of a pass, its split between the cells and the commands that follow (3.1 to 3.7). -/

namespace Sys2Proof.Machine

/-! ### The equalizer works only without an input (R65, R66) -/

theorem arb_of_startsTransfer {s : State} {d : Dir} (h : startsTransfer s = some d) : s.arb.st = .none := by
  have from_may {x : Cell} (hm : mayTransfer s x = true) : s.arb.st = .none := by
    obtain ⟨-, harb, -⟩ := of_decide_eq_true hm
    exact harb
  unfold startsTransfer at h
  split at h
  · split at h
    · split at h
      · split at h
        · next hm => exact from_may hm
        · cases h
      · split at h
        · next hm => exact from_may hm
        · cases h
    · cases h
  · cases h

theorem arb_of_keepsTransfer {s : State} {d : Option Dir} (h : keepsTransfer s d = true) : s.arb.st = .none := by
  have from_may {x : Cell} (hm : mayTransfer s x = true) : s.arb.st = .none := by
    obtain ⟨-, harb, -⟩ := of_decide_eq_true hm
    exact harb
  unfold keepsTransfer at h
  split at h
  · exact from_may (of_decide_eq_true h).1
  · exact from_may (of_decide_eq_true h).1

theorem arb_of_equalized {s : State} {r : Record} (h : recordOf (equalized s) 0 = some r) : s.arb.st = .none := by
  unfold equalized at h
  split at h
  · next hfree =>
    split at h
    · rw [hfree] at h
      cases h
    · next d hd => exact arb_of_startsTransfer hd
  · next q hq =>
    split at h
    · next hk => exact arb_of_keepsTransfer hk
    · have freed : recordOf (freeSlot 0 s) 0 = some r := h
      rw [recordOf_freeSlot, if_pos rfl] at freed
      cases freed

/-- Where the walk leaves a record in slot 0 there is no source allowance (R34, R65, R66). -/
theorem passFigures_S_of_equalizer {s : State} {r : Record} (h : recordOf (passWalk s).st 0 = some r) : (passFigures s).S = 0 := by
  obtain ⟨granted, -, slots, -⟩ := passWalk_spec s
  rw [recordOf, slots, Option.map_eq_some_iff] at h
  obtain ⟨q, hq, -⟩ := h
  obtain ⟨q₀, hq₀, -⟩ := Option.map_eq_some_iff.mp hq
  rw [passFigures_S, arb_of_equalized hq₀]

/-! ### What the split stage reads as the state before the pass -/

section
variable {s t : State} (h : sameButTable (droopStep s) t)
include h

theorem shareA_of_stage (charge : Bool) : shareA t charge = shareOf s charge := by
  rw [shareOf_eq, eq_of_sameButTable_droopStep h]
  rfl

theorem chargeCap_of_stage (x : Cell) (c : Nat) : chargeCap t x (cellVolt s x) c = chargeCapAt s x c := by
  rw [chargeCapAt_eq, eq_of_sameButTable_droopStep h]
  rfl

theorem checkCommand_of_stage (x : Cell) (low : Bool) (c : Int) : checkCommand t x low c = commandChecked s x low c := by
  rw [commandChecked_eq, eq_of_sameButTable_droopStep h]
  rfl

theorem etaEq_of_stage : t.lim.etaEq = s.lim.etaEq := by
  rw [eq_of_sameButTable_droopStep h]

end

/-! ### The split -/

theorem shareOf_le (s : State) (charge : Bool) : shareOf s charge ≤ 1024 := by
  unfold shareOf
  extract_lets cs term
  omega

theorem splitAmount_sum (P : Nat) {share : Nat} (capA capB : Nat) (h : share ≤ 1024) :
    (splitAmount P share capA capB).pA + (splitAmount P share capA capB).pB + (splitAmount P share capA capB).r = P := by
  obtain ⟨-, -, hsum, -⟩ := splitFillsTheCaps P share capA capB h
  exact hsum

theorem splitAmount_zero (share capA capB : Nat) : splitAmount 0 share capA capB = ⟨0, 0, 0⟩ := by
  simp [splitAmount]

/-- The commands that a split stage hands on follow from the net powers `netA` and `netB` after the checks of R61. -/
def handsOn (s : State) (o : SplitOut) (netA netB : Int) (lowA lowB : Bool) : Prop :=
  (⟨o.cmdA, o.cmdB⟩ : PerCell Int) =
    ⟨commandChecked s .A lowA (commandA netA (cellVolt s .A)),
      commandChecked s .B lowB (commandB netB (cellVolt s .B) (passFigures s).rh)⟩

/-- The split stage of a pass, by the three forms of R54 and R55: a charge, a discharge, and a discharge with a transfer. -/
structure SplitsAs (s : State) (o : SplitOut) : Prop where
  sum : o.split.pA + o.split.pB + o.split.r = o.N.natAbs
  charge : equalizerDraw o.st = 0 → 0 ≤ o.N →
    splitAmount o.N.natAbs (shareOf s true) (chargeCapAt s .A (ichg s .A)) (chargeCapAt s .B (ichg s .B)) = o.split ∧
      handsOn s o o.split.pA o.split.pB false false
  discharge : equalizerDraw o.st = 0 → o.N < 0 →
    splitAmount o.N.natAbs (shareOf s false) (passFigures s).dA (passFigures s).dBn = o.split ∧
      handsOn s o (-o.split.pA) (-o.split.pB) false false
  fromA : ∀ r, recordOf o.st 0 = some r → 0 < equalizerDraw o.st → r.dir ≠ some .bToA →
    equalizerDraw o.st ≤ (passFigures s).dA ∧
      splitAmount o.N.natAbs (shareOf s false) ((passFigures s).dA - equalizerDraw o.st) (passFigures s).dBn = o.split ∧
      handsOn s o (-(o.split.pA + equalizerDraw o.st : Nat))
        ((min (equalizerDraw o.st * s.lim.etaEq / 256)
          (chargeCapAt s .B (s.lim.fastI.b * zoneFraction s .B / 256)) : Nat) - o.split.pB) false true
  fromB : ∀ r, recordOf o.st 0 = some r → 0 < equalizerDraw o.st → r.dir = some .bToA →
    equalizerDraw o.st ≤ (passFigures s).dBn ∧
      splitAmount o.N.natAbs (shareOf s false) (passFigures s).dA ((passFigures s).dBn - equalizerDraw o.st) = o.split ∧
      handsOn s o
        ((min (equalizerDraw o.st * s.lim.etaEq / 256)
          (chargeCapAt s .A (s.lim.fastI.a * zoneFraction s .A / 256)) : Nat) - o.split.pA)
        (-(o.split.pB + equalizerDraw o.st : Nat)) true false

theorem splitsAs_plainSplit {s t : State} (h : sameButTable (droopStep s) t) (N : Int) (hE : equalizerDraw t = 0) :
    SplitsAs s (plainSplit (passFigures s) N t) := by
  obtain ⟨-, -, -, -, -, -, -, hvolt⟩ := passFigures_cells s
  have st : (plainSplit (passFigures s) N t).st = t := by
    unfold plainSplit
    split <;> rfl
  have hN : (plainSplit (passFigures s) N t).N = N := by
    unfold plainSplit
    split <;> rfl
  have positive (hpos : 0 ≤ N) : splitAmount N.natAbs (shareOf s true) (chargeCapAt s .A (ichg s .A)) (chargeCapAt s .B (ichg s .B)) =
      (plainSplit (passFigures s) N t).split ∧ handsOn s (plainSplit (passFigures s) N t)
        (plainSplit (passFigures s) N t).split.pA (plainSplit (passFigures s) N t).split.pB false false := by
    have hnat : N.toNat = N.natAbs := by omega
    simp only [plainSplit, if_pos hpos, handsOn, hvolt, hnat, shareA_of_stage h, chgCeiling_of_stage h, chargeCap_of_stage h,
      checkCommand_of_stage h, and_self]
  have negative (hneg : N < 0) : splitAmount N.natAbs (shareOf s false) (passFigures s).dA (passFigures s).dBn =
      (plainSplit (passFigures s) N t).split ∧ handsOn s (plainSplit (passFigures s) N t)
        (-(plainSplit (passFigures s) N t).split.pA) (-(plainSplit (passFigures s) N t).split.pB) false false := by
    simp only [plainSplit, if_neg (Int.not_le.mpr hneg), handsOn, hvolt, shareA_of_stage h, checkCommand_of_stage h, and_self]
  constructor
  case sum =>
    rw [hN]
    rcases Int.lt_or_le N 0 with hneg | hpos
    · rw [← (negative hneg).1]
      exact splitAmount_sum _ _ _ (shareOf_le s _)
    · rw [← (positive hpos).1]
      exact splitAmount_sum _ _ _ (shareOf_le s _)
  case charge =>
    rw [hN]
    exact fun _ => positive
  case discharge =>
    rw [hN]
    exact fun _ => negative
  case fromA =>
    rw [st]
    exact fun _ _ hpos => absurd hE hpos.ne'
  case fromB =>
    rw [st]
    exact fun _ _ hpos => absurd hE hpos.ne'

theorem splitsAs_stoppedSplit {s t : State} (h : sameButTable (droopStep s) t) {N : Int} (hN : N ≤ 0) (hE : equalizerDraw t = 0) :
    SplitsAs s (stoppedSplit (passFigures s) N t) := by
  obtain ⟨-, -, -, -, -, -, -, hvolt⟩ := passFigures_cells s
  have negative : splitAmount N.natAbs (shareOf s false) (passFigures s).dA (passFigures s).dBn =
      (stoppedSplit (passFigures s) N t).split ∧ handsOn s (stoppedSplit (passFigures s) N t)
        (-(stoppedSplit (passFigures s) N t).split.pA) (-(stoppedSplit (passFigures s) N t).split.pB) false false := by
    simp only [stoppedSplit, handsOn, hvolt, shareA_of_stage h, checkCommand_of_stage h, and_self]
  obtain ⟨hsplit, hcmd⟩ := negative
  constructor
  case sum =>
    rw [← hsplit]
    exact splitAmount_sum _ _ _ (shareOf_le s _)
  case charge =>
    intro _ hpos
    obtain rfl : N = 0 := Int.le_antisymm hN hpos
    have none : (stoppedSplit (passFigures s) 0 t).split = ⟨0, 0, 0⟩ := hsplit.symm.trans (splitAmount_zero _ _ _)
    rw [none] at hcmd ⊢
    exact ⟨splitAmount_zero _ _ _, hcmd⟩
  case discharge => exact fun _ _ => ⟨hsplit, hcmd⟩
  case fromA => exact fun _ _ hpos => absurd hE hpos.ne'
  case fromB => exact fun _ _ hpos => absurd hE hpos.ne'

theorem splitsAs_transferSplit {s t : State} (h : sameButTable (droopStep s) t) (N : Int) {r : Record}
    (hr : recordOf t 0 = some r) (hE : 0 < equalizerDraw t)
    (hcap : equalizerDraw t ≤ sourceCap (passFigures s) (r.dir.getD .aToB)) :
    SplitsAs s (transferSplit (passFigures s) N (equalizerDraw t) (r.dir.getD .aToB) t) := by
  obtain ⟨-, -, -, -, -, -, -, hvolt⟩ := passFigures_cells s
  have st : (transferSplit (passFigures s) N (equalizerDraw t) (r.dir.getD .aToB) t).st = t := transferSplit_st ..
  have hN : (transferSplit (passFigures s) N (equalizerDraw t) (r.dir.getD .aToB) t).N = N := by
    cases r.dir.getD .aToB <;> rfl
  have etaEq := etaEq_of_stage h
  constructor
  case sum =>
    cases r.dir.getD .aToB
    · exact splitAmount_sum _ _ _ (shareA_of_stage h false ▸ shareOf_le s _)
    · exact splitAmount_sum _ _ _ (shareA_of_stage h false ▸ shareOf_le s _)
  case charge => exact fun hzero => absurd (st ▸ hzero) hE.ne'
  case discharge => exact fun hzero => absurd (st ▸ hzero) hE.ne'
  case fromA =>
    rw [st, hN]
    intro q hq _ hdir
    cases hr.symm.trans hq
    rcases getD_aToB_cases r.dir with ⟨hd, -⟩ | ⟨-, hg⟩
    · exact absurd hd hdir
    · rw [hg] at hcap ⊢
      refine ⟨hcap, ?_⟩
      simp only [transferSplit, handsOn, hvolt, receivedPower, equalizingCeiling_of_stage h, shareA_of_stage h,
        chargeCap_of_stage h, checkCommand_of_stage h, etaEq, PerCell.get, Nat.cast_add, and_self]
  case fromB =>
    rw [st, hN]
    intro q hq _ hdir
    cases hr.symm.trans hq
    rcases getD_aToB_cases r.dir with ⟨-, hg⟩ | ⟨hd, -⟩
    · rw [hg] at hcap ⊢
      refine ⟨hcap, ?_⟩
      simp only [transferSplit, handsOn, hvolt, receivedPower, equalizingCeiling_of_stage h, shareA_of_stage h,
        chargeCap_of_stage h, checkCommand_of_stage h, etaEq, PerCell.get, Nat.cast_add, and_self]
    · exact absurd hdir hd

/-- The split of a pass and its net power, which is worked with the table before the split stage stops the equalizer (R51, R55). -/
theorem passSplit_splitsAs (s : State) : SplitsAs s (passSplit s) ∧ (passSplit s).N =
    ((passFigures s).S : Int) -
      ((grantedSum (passSplit s).st + s.load.U - equalizerDraw (passSplit s).st : Nat) : Int) := by
  have walk := sameButTable_passWalk s
  unfold passSplit
  rcases splitStage_cases (passFigures s) s.load.U (passWalk s).st with
    ⟨hzero, hsplit⟩ | ⟨r, hr, -, -, hpos, ⟨-, hsplit⟩ | ⟨hcap, hsplit⟩⟩ <;> rw [hsplit]
  · refine ⟨splitsAs_plainSplit walk _ hzero, ?_⟩
    unfold plainSplit
    split <;> rfl
  · have hS := passFigures_S_of_equalizer hr
    have hfree : equalizerDraw (freeSlot 0 (passWalk s).st) = 0 := equalizerDraw_freeSlot _
    have hsum := grantedSum_freeSlot 0 (passWalk s).st
    have freed : sameButTable (passWalk s).st (freeSlot 0 (passWalk s).st) := rfl
    refine ⟨splitsAs_stoppedSplit (sameButTable_trans walk freed) ?_ hfree, ?_⟩
    · rw [netPower, hS]
      omega
    · show ((passFigures s).S : Int) - ((grantedSum (passWalk s).st + s.load.U - equalizerDraw (passWalk s).st : Nat) : Int) =
        ((passFigures s).S : Int) - ((grantedSum (freeSlot 0 (passWalk s).st) + s.load.U -
          equalizerDraw (freeSlot 0 (passWalk s).st) : Nat) : Int)
      unfold equalizerDraw at hfree ⊢
      omega
  · refine ⟨splitsAs_transferSplit walk _ hr hpos hcap, ?_⟩
    rw [transferSplit_st]
    cases r.dir.getD .aToB <;> rfl

/-! ### The input current command (R63) -/

theorem inputCommand_spec (S ie : Nat) (N : Int) (r : Nat) :
    (S = 0 → inputCommand S ie N r = none) ∧
    (0 < S → (N < 0 ∨ r = 0) → inputCommand S ie N r = some ie) ∧
    (0 < S → 0 ≤ N → 0 < r → inputCommand S ie N r = some ((ie * (S - r) + S - 1) / S)) ∧
    (∀ c, inputCommand S ie N r = some c → c ≤ ie) := by
  unfold inputCommand
  refine ⟨fun h => if_pos h, fun hS h => ?_, fun hS hN hr => ?_, fun c hc => ?_⟩
  · rw [if_neg hS.ne', if_neg (by omega)]
  · rw [if_neg hS.ne', if_pos ⟨hN, hr⟩]
    rfl
  · split at hc
    · cases hc
    · next hS =>
      split at hc
      · next h =>
        cases hc
        have less : ie * (S - r) ≤ ie * S := Nat.mul_le_mul_left ie (Nat.sub_le S r)
        refine Nat.le_of_lt_succ ((Nat.div_lt_iff_lt_mul (Nat.pos_of_ne_zero hS)).mpr ?_)
        rw [Nat.succ_mul]
        omega
      · cases hc
        exact Nat.le_refl _

/-- The Ie of the active port after the droop step is the one that the pass leaves. -/
theorem passFigures_ie (s : State) : (passFigures s).ie = activeIe (budgetPass s) := by
  have arb : (droopStep s).arb = s.arb := by rw [droopStep_frame]
  have ie : (passFigures s).ie = activeIe (droopStep s) := rfl
  rw [ie, budgetPass_frame]
  unfold activeIe activePort
  rw [arb]

/-- Settles O32 by the three branches of the split stage; a stop of the equalizer finds no input active, so that N is not above 0. -/
theorem passPublishesTheSplit : Obligations.PassPublishesTheSplit := by
  refine fun s row hdue => ⟨budgetPass s, exec_of_passDue hdue, ?_⟩
  obtain ⟨splits, hN⟩ := passSplit_splitsAs s
  have hcmd : (budgetPass s).budget.cmd = ⟨(passSplit s).cmdA, (passSplit s).cmdB⟩ := by
    rw [budgetPass_eq]
    rfl
  have hinput : (budgetPass s).budget.inputCmd =
      inputCommand (passFigures s).S (passFigures s).ie (passSplit s).N (passSplit s).split.r := by
    rw [budgetPass_eq]
    rfl
  have hslot : slotOf (budgetPass s) 0 = slotOf (passSplit s).st 0 := slotOf_budgetPass s 0
  obtain ⟨absent, placed, fraction, bound⟩ :=
    inputCommand_spec (passFigures s).S (passFigures s).ie (passSplit s).N (passSplit s).split.r
  rw [← hinput] at absent placed fraction bound
  rw [passFigures_ie] at placed fraction bound
  rw [recordOf, equalizerDraw, hslot, pub_budgetPass, publishedOf, ← recordOf, ← equalizerDraw, hcmd]
  intro p ie
  have hie : activeIe (budgetPass s) = ie := by
    unfold activeIe activePort
    simp only [ie]
    cases (budgetPass s).arb.st <;> rfl
  clear_value ie
  subst hie
  dsimp only [p]
  exact ⟨hN, splits.sum, splits.charge, splits.discharge,
    fun r hr hE => ⟨splits.fromA r hr hE, splits.fromB r hr hE⟩, absent, placed, fraction, bound⟩

end Sys2Proof.Machine
end
